-- ==== Sys2Proof/Word.lean ====
section
/-! DEFINITION. The widths of the OpenBeacon tag core block (OBTC): the word of the host port, the smaller
register widths, and the two fixed byte arrays of the configuration (00_scope.md R3, R4). -/

namespace Sys2Proof

/-- A 32-bit word: a command word, a register as the host port carries it (20_memory.md R41, R42). -/
abbrev Word := BitVec 32

/-- A 16-bit register or field (10_state.md R19, R21, R23, R25, R26). -/
abbrev Half := BitVec 16

/-- One byte. -/
abbrev Byte := BitVec 8

/-- The 20 bytes of a BeaconPacket, index 0 first (30_encoding.md R70, FRAME_BYTES). -/
abbrev Frame := Vector Byte 20

/-- The 16 bytes of the shared symmetric key, `KEY[0..15]` (00_scope.md R3). -/
abbrev Key := Vector Byte 16

/-- The size in bytes of the flash log region. 00_scope.md R3 bounds it:
`0 <= LOG_CAPACITY <= 2^32 - 1 - ENTRY_BYTES`, and `2^32 - 28 = 4294967268` is the first value outside. -/
abbrev Capacity := Fin 4294967268

/-- One value for each of the three axes x, y, z (10_state.md R19, R31, R32). -/
structure Axes (α : Type) where
  /-- axis x -/
  x : α
  /-- axis y -/
  y : α
  /-- axis z -/
  z : α
  deriving DecidableEq, Repr

/-- FRAME_BYTES: the size of a BeaconPacket and of a radio frame (00_scope.md R3, 30_encoding.md R70). -/
abbrev frameBytes : Nat := 20

/-- FRAME_BLOCKS: the `blockCount` passed to the cipher, `FRAME_BYTES / 4` (00_scope.md R3, 42_codec.md R110). -/
abbrev frameBlocks : Nat := 5

/-- ENTRY_BYTES: `sizeof(LogfileEntry)` (00_scope.md R3, 30_encoding.md R72). -/
abbrev entryBytes : Nat := 28

end Sys2Proof
end

