-- ==== Sys2Proof/Machine/Crc.lean ====
section
/-! DEFINITION. The default instantiation of the checksum parameter `CRC16`: CRC-16/CCITT-FALSE
(00_scope.md R7). No meaning of the model depends on this choice but through the configuration record. -/

namespace Sys2Proof.Machine

/-- One bit of the shift register: shift left, and exclusive-or with 0x1021 when bit 15 was 1 (00_scope.md R7). -/
def crcBit (crc : Half) : Half :=
  if crc.getLsbD 15 then (crc <<< 1) ^^^ 0x1021#16 else crc <<< 1

/-- One byte: exclusive-or into the upper half, then eight bit steps (00_scope.md R7). -/
def crcByte (crc : Half) (b : Byte) : Half :=
  crcBit (crcBit (crcBit (crcBit (crcBit (crcBit (crcBit (crcBit (crc ^^^ (b ++ 0x00#8)))))))))

/-- CRC-16/CCITT-FALSE of a byte string: initial value 0xFFFF, bytes in order, no final exclusive-or (00_scope.md R7). -/
def crcCcittFalse (bytes : List Byte) : Half :=
  bytes.foldl crcByte 0xFFFF#16

end Sys2Proof.Machine
end

