-- ==== Sys2Proof/Config.lean ====
section
/-! DEFINITION. What an implementation fixes: the configuration record of 00_scope.md R3 with its constraints, the
record the machine runs with, and the free values of the model (opaque constants without a body: nothing in Lean
can evaluate them). -/

namespace Sys2Proof

/-- The configuration record of 00_scope.md R3, with the constraints of its table and the laws of R8 carried as
proofs. Every meaning, the step and the state after reset take this record as an argument (`Machine.execIn`,
`Machine.stepIn`, `Machine.resetIn`); `Machine.exec`, `Machine.step` and `Machine.State.reset` are they with
`Config.params`. -/
structure Params where
  /-- `DEPTH`: ring-buffer depth of MOT -/
  depth : Nat
  /-- `THRESHOLD`: deviation threshold of MOT -/
  threshold : Nat
  /-- `MAX_TICKS`: re-arm value of TICKS -/
  maxTicks : Nat
  /-- `MWC_A1`: multiplier of the word V1 -/
  mwcA1 : Nat
  /-- `MWC_A2`: multiplier of the word V2 -/
  mwcA2 : Nat
  /-- `V1_INIT` -/
  v1Init : Word
  /-- `V2_INIT` -/
  v2Init : Word
  /-- `SEED_INIT` -/
  seedInit : Word
  /-- `PROTO_BEACONTRACKER`: the expected beacon-tracker tag -/
  protoBeacontracker : Byte
  /-- `FLAG_MOVING`: mask of the moving bit in the flags byte -/
  flagMoving : Byte
  /-- `ENTRY_TYPE_BEACON`: type tag of a logged received beacon -/
  entryTypeBeacon : Byte
  /-- `ERASED_BYTE`: what every byte of the log region reads after a successful erase -/
  erasedByte : Byte
  /-- `KEY`: the shared symmetric key -/
  key : Key
  /-- `CRC16`: a total function of its argument bytes (R7) -/
  crc16 : List Byte → Half
  /-- The cipher, as a function of `blockCount` and the key: `ENC` is the permutation of the 20-byte arrays and `DEC`
  its inverse, which are the two laws of R8. -/
  cipher : Nat → Key → Equiv.Perm Frame
  /-- `LOG_CAPACITY`: the size of the log region in bytes, within the bound of R3 -/
  logCapacity : Capacity
  depth_range : 1 ≤ depth ∧ depth ≤ 256
  threshold_range : threshold ≤ 65535
  maxTicks_range : 1 ≤ maxTicks ∧ maxTicks ≤ 255
  mwcA1_range : 1 ≤ mwcA1 ∧ mwcA1 ≤ 65535
  mwcA2_range : 1 ≤ mwcA2 ∧ mwcA2 ≤ 65535
  flagMoving_oneBit : ∃ i : Fin 8, flagMoving = 1#8 <<< i.val

/-- What a call of the flash driver reports (20_memory.md R47, R48). -/
inductive FlashResult where
  /-- the driver reports success -/
  | ok
  /-- the driver reports failure -/
  | fail
  deriving DecidableEq, Repr, Inhabited

/-- What one byte of a failed or interrupted flash write holds afterwards (20_memory.md R47; for an erase, R48, the
corresponding new byte is `ERASED_BYTE`). -/
inductive TornByte where
  /-- unchanged -/
  | old
  /-- the corresponding byte of what was being written -/
  | new
  /-- any other value -/
  | other (b : Byte)
  deriving DecidableEq, Repr, Inhabited

/-- What the retention word holds after a reset that falls on its update (20_memory.md R52(b)). -/
inductive Commit where
  /-- the old value survived -/
  | old
  /-- the new value did -/
  | new
  deriving DecidableEq, Repr, Inhabited

namespace Config

/-- FREE VALUE (log entry 4). The k-th timer sample that no lined-up draw supplies (60_exceptions.md R176: a value
chosen by the environment under no law). -/
opaque freeTimer : Nat → Word

/-- FREE VALUE (log entry 4). The k-th flash-driver result that no lined-up draw supplies (20_memory.md R47, R48). -/
opaque freeFlashResult : Nat → FlashResult

/-- FREE VALUE (log entry 4). The k-th torn byte that no lined-up draw supplies (20_memory.md R47, R48). -/
opaque freeTornByte : Nat → TornByte

/-- FREE VALUE (log entry 4). The k-th outcome of a reset on the cursor's update that no lined-up draw supplies
(20_memory.md R52(b), 43_log.md R136, R141). -/
opaque freeCommit : Nat → Commit

/-- OPEN parameter `KEY` (00_scope.md R3): 16 bytes, no default (log entry 3). -/
opaque key : Key

/-- OPEN parameters `ENC`, `DEC` (00_scope.md R3, R8): total functions on 20 bytes, inverse to each other, a function of
the block count and the key alone (log entry 3). -/
opaque cipher : Nat → Key → Equiv.Perm Frame

/-- What the log region of `params` has beyond 84 bytes: a constant nothing is known of (log entry 1). -/
opaque spareCapacity : Fin 4294967184

/-- OPEN parameter `LOG_CAPACITY` (00_scope.md R3) of `params`: it has no default; any value of the table's range from the 84
bytes of the spec's vectors up (log entry 1). -/
def logCapacity : Capacity :=
  ⟨84 + spareCapacity.val, by omega⟩

/-- The configuration the machine runs with: the default column of 00_scope.md R3, and the open parameters open
(log entries 2, 3). -/
def params : Params where
  depth := 10
  threshold := 3
  maxTicks := 20
  mwcA1 := 36969
  mwcA2 := 30963
  v1Init := 0x52F7D319#32
  v2Init := 0x6E28014A#32
  seedInit := 0x00000000#32
  protoBeacontracker := 24#8
  flagMoving := 0x02#8
  entryTypeBeacon := 0x01#8
  erasedByte := 0xFF#8
  key := key
  crc16 := Machine.crcCcittFalse
  cipher := cipher
  logCapacity := logCapacity
  depth_range := by decide
  threshold_range := by decide
  maxTicks_range := by decide
  mwcA1_range := by decide
  mwcA2_range := by decide
  flagMoving_oneBit := ⟨1, by decide⟩

end Config

end Sys2Proof
end

