-- ==== Sys2Proof/Machine/Memory.lean ====
section
/-! DEFINITION. The flash log region as plain data: a list of (offset, byte) pairs in one canonical form, offsets
strictly rising. An unlisted offset has NO VALUE: its contents are unspecified (20_memory.md R46, 10_state.md R39;
log entry 5). No command of the block reads the region (R46), so no step ever meets an unspecified byte. -/

namespace Sys2Proof.Machine

/-- The flash log region: the bytes whose value is known, by offset (20_memory.md R46). -/
abbrev Memory := List Host.Cell

/-- The canonical form: offsets strictly rising. (No entry can equal what an unlisted offset reads as, because that
is no value.) -/
abbrev Memory.wf (m : Memory) : Prop :=
  m.Pairwise (fun c d => c.1 < d.1)

/-- The byte at offset `a`; `none` where its contents are unspecified. -/
def Memory.read : Memory → Nat → Option Byte
  | [], _ => none
  | (x, y) :: m, a => if a = x then some y else Memory.read m a

/-- Store the byte `b` at offset `a`, keeping the canonical form. -/
def Memory.write (a : Nat) (b : Byte) : Memory → Memory
  | [] => [(a, b)]
  | (x, y) :: m =>
    if a < x then (a, b) :: (x, y) :: m
    else if a = x then (a, b) :: m
    else (x, y) :: Memory.write a b m

/-- Store the bytes `bs` at the offsets from `a` on. -/
def Memory.writeBytes (m : Memory) (a : Nat) : List Byte → Memory
  | [] => m
  | b :: bs => Memory.writeBytes (Memory.write a b m) (a + 1) bs

/-- The memory that holds exactly the bytes `bs` at the offsets from `a` on. -/
def Memory.ofBytes (a : Nat) : List Byte → Memory
  | [] => []
  | b :: bs => (a, b) :: Memory.ofBytes (a + 1) bs

/-- The `n` bytes at the offsets from `a` on; `none` when one of them is unspecified. -/
def Memory.readBytes (m : Memory) (a : Nat) : Nat → Option (List Byte)
  | 0 => some []
  | n + 1 =>
    match Memory.read m a, Memory.readBytes m (a + 1) n with
    | some b, some bs => some (b :: bs)
    | _, _ => none

end Sys2Proof.Machine
end

