-- ==== Sys2Proof/Syntax.lean ====
section
/-! DEFINITION. Syntax: the ten commands (30_encoding.md R65), the registers of the host port (10_state.md R10), the
transactions and what happens at the block's boundary, and the assembly statements (30_encoding.md R67, R68). -/

namespace Sys2Proof

/-- A command, the block's analogue of an instruction: one constructor per row of 30_encoding.md R65. Operands are
implicit (R63); the only operand in a word is the immediate of NEXTI. -/
inductive Instr where
  /-- NOP: do nothing (44_system.md R150) -/
  | nop
  /-- SETID: derive the identity and lock it (44_system.md R151) -/
  | setid
  /-- NEXT: draw one jitter value, range from ARG (40_jitter.md R82) -/
  | next
  /-- NEXTI: draw one jitter value, range from the command word; `imm` is `zext_24(imm24)` (40_jitter.md R83,
  30_encoding.md R64) -/
  | nexti (imm : Word)
  /-- OBSERVE: feed one accelerometer sample to the filter (41_motion.md R91) -/
  | observe
  /-- ENCODE: build the plaintext beacon frame (42_codec.md R106) -/
  | encode
  /-- ENCRYPT: apply the cipher to the built frame (42_codec.md R109) -/
  | encrypt
  /-- VERIFY: decrypt, check and account for a received frame (42_codec.md R111) -/
  | verify
  /-- APPEND: log the verified frame (43_log.md R130) -/
  | append
  /-- ERASE: rewind the cursor and erase the log (43_log.md R139) -/
  | erase
  deriving DecidableEq, Repr

/-- A register of the host port: one name per implemented register number (10_state.md R10). -/
inductive Reg where
  | cmd | rc | res | status
  | arg
  | sx | sy | sz
  | uid (i : Fin 4)
  | tagid | txlevel | txseq | battery | peerlast | peerlow | peerhigh
  | f (i : Fin 5)
  | cursor | logcap
  | ticks | pos | sumx | sumy | sumz
  | v1 | v2 | seed
  deriving DecidableEq, Repr

/-- A host request `(we, rn, wdata)`; for a read `wdata` is ignored (20_memory.md R41, R42, R45). -/
inductive Request where
  /-- `we = 0` -/
  | read (rn : Byte)
  /-- `we = 1` -/
  | write (rn : Byte) (wdata : Word)
  deriving DecidableEq, Repr

/-- The answer `(err, rdata)` of a transaction (20_memory.md R45). -/
structure Answer where
  /-- the bus error flag -/
  err : Bool
  /-- the data read; 0 for a write and for a bus error -/
  rdata : Word
  deriving DecidableEq, Repr

/-- The two kinds of reset (70_reset_and_hazards.md R195, R196). -/
inductive ResetKind where
  /-- a device reset: CURSOR and the flash log region survive (R195) -/
  | warm
  /-- the first power-up of the retention domain: CURSOR becomes 0 and the flash contents are unspecified. `contents`
  is the argument U7 asks for: the bytes of the region from offset 0; an offset past its end stays unspecified
  (R196, 10_state.md R39; log entry 8). -/
  | cold (contents : List Byte)
  deriving DecidableEq, Repr

/-- What reaches the block from outside, in the order it happens (00_scope.md R9). -/
inductive Event where
  /-- the host issues a request, and the block runs it to completion and answers it (20_memory.md R45) -/
  | request (r : Request)
  /-- the host issues a request, and the block has performed its first `n` sub-steps and not yet answered: the
  intermediate states in which a reset can fall (70_reset_and_hazards.md R197, R198, 43_log.md R136, R141) or in which
  a flash driver that never returns leaves the block (60_exceptions.md R179) -/
  | begun (r : Request) (n : Nat)
  /-- a reset, enabled in every state (70_reset_and_hazards.md R197) -/
  | reset (k : ResetKind)
  deriving DecidableEq, Repr

/-- One assembly statement (30_encoding.md R67). -/
inductive Stmt where
  /-- `wr NAME, value` -/
  | wr (r : Reg) (value : Word)
  /-- `rd NAME` -/
  | rd (r : Reg)
  /-- a command statement; `nexti imm` with the immediate as written -/
  | command (i : Instr)
  /-- `reset warm`, `reset cold`: not a transaction -/
  | reset (k : ResetKind)
  deriving DecidableEq, Repr

/-- The pseudo-instructions of 30_encoding.md R68. -/
inductive Pseudo where
  /-- `nextr value` -/
  | nextr (value : Word)
  /-- `observe3 x, y, z` -/
  | observe3 (x y z : Word)
  /-- `setuid w0, w1, w2, w3` -/
  | setuid (w0 w1 w2 w3 : Word)
  /-- `ldframe w0, w1, w2, w3, w4` -/
  | ldframe (w0 w1 w2 w3 w4 : Word)
  /-- `rdframe` -/
  | rdframe
  /-- `status` -/
  | status
  deriving DecidableEq, Repr

end Sys2Proof
end

