-- ==== Sys2Proof/Machine/State.lean ====
section
/-! DEFINITION. The state of the block, unit by unit, as 10_state.md lists it, and the state after reset
(10_state.md R39). The host port's pending events and the environment's draws are the model's own fields
(log entries 4, 6). -/

namespace Sys2Proof.Machine

/-- Registers of the system unit. -/
structure Sys where
  /-- CMD, register 0x00: the last word written (10_state.md R14) -/
  cmd : Word
  /-- RC, register 0x01: the return code of the most recent command (10_state.md R15) -/
  rc : BitVec 4
  /-- RES, register 0x02: the result value of the most recent command (10_state.md R16) -/
  res : Word
  deriving DecidableEq, Repr

/-- Registers of unit JIT, the jitter generator. -/
structure Jit where
  /-- ARG, register 0x04: the range operand of NEXT (10_state.md R18) -/
  arg : Word
  /-- V1, register 0x25 (10_state.md R36) -/
  v1 : Word
  /-- V2, register 0x26 (10_state.md R36) -/
  v2 : Word
  /-- SEED, register 0x27: the accumulated timer contribution (10_state.md R37) -/
  seed : Word
  deriving DecidableEq, Repr

/-- Registers and hidden state of unit MOT, the motion detector. -/
structure Mot where
  /-- SX, SY, SZ, registers 0x05 to 0x07: the sample operand (10_state.md R19) -/
  sample : Axes Half
  /-- BUF: the ring buffer of the last DEPTH samples, slot 0 first (10_state.md R31) -/
  buf : List (Axes Half)
  /-- SUMX, SUMY, SUMZ, registers 0x22 to 0x24: the running sums, two's complement (10_state.md R32) -/
  sum : Axes Word
  /-- POS, register 0x21: the slot the next OBSERVE overwrites (10_state.md R33) -/
  pos : Byte
  /-- WARM: the buffer has been filled once (10_state.md R34) -/
  warm : Bool
  /-- TICKS, register 0x20: `moving_ticks`, 0 is still (10_state.md R35) -/
  ticks : Byte
  deriving DecidableEq, Repr

/-- The tag FSTATE, which records what FRAME holds (10_state.md R28). -/
inductive FState where
  /-- 0: nothing of meaning -/
  | empty
  /-- 1: a plaintext frame built by this block -/
  | built
  /-- 2: bytes not known to be a valid plaintext frame -/
  | raw
  /-- 3: a decrypted received frame that was accepted -/
  | verified
  deriving DecidableEq, Repr

/-- Registers of unit COD, the beacon codec. -/
structure Cod where
  /-- UID0 to UID3, registers 0x08 to 0x0B (10_state.md R20) -/
  uid : Vector Word 4
  /-- TAGID, register 0x0C (10_state.md R21) -/
  tagId : Half
  /-- IDVALID: an identity is set (10_state.md R21) -/
  idValid : Bool
  /-- TXLEVEL, register 0x0D: 0 low, 1 high (10_state.md R22) -/
  txLevel : BitVec 1
  /-- TXSEQ, register 0x0E: the sequence counter (10_state.md R23) -/
  txSeq : Half
  /-- BATTERY, register 0x0F (10_state.md R24) -/
  battery : Byte
  /-- PEERLAST, register 0x10: the last-seen peer ID (10_state.md R25) -/
  peerLast : Half
  /-- PEERLOW, register 0x11: low-strength receptions (10_state.md R26) -/
  peerLow : Half
  /-- PEERHIGH, register 0x12: high-strength receptions (10_state.md R26) -/
  peerHigh : Half
  /-- FRAME, seen as F0 to F4, registers 0x14 to 0x18: the one packet buffer (10_state.md R27) -/
  frame : Frame
  /-- FSTATE: what FRAME holds (10_state.md R28) -/
  fstate : FState
  deriving DecidableEq, Repr

/-- PHASE, the sub-step marker of the LOG unit (10_state.md R38). -/
inductive Phase where
  /-- IDLE -/
  | idle
  /-- A_WRITE: the flash write of `entry` at CURSOR is in progress (43_log.md R130, R136) -/
  | aWrite (entry : List Byte)
  /-- A_COMMIT: the flash write has returned `ok` and CURSOR is being written (43_log.md R130, R136) -/
  | aCommit
  /-- E_COMMIT: CURSOR is being rewound (43_log.md R139, R141) -/
  | eCommit
  /-- E_ERASE: the erase is in progress (43_log.md R139, R141) -/
  | eErase
  deriving DecidableEq, Repr

/-- The log unit, its retention word and the flash log region. (LOGCAP, register 0x1D, is no state: it reads the constant
LOG_CAPACITY of the configuration, 10_state.md R29.) -/
structure Log where
  /-- CURSOR, register 0x1C: byte offset of the next free slot, the one word of the retention domain
  (10_state.md R10, R30) -/
  cursor : Word
  /-- PHASE (10_state.md R38) -/
  phase : Phase
  /-- the flash log region (20_memory.md R46) -/
  flash : Memory
  deriving DecidableEq, Repr

/-- Where the host port stands (20_memory.md R45). -/
inductive PortStatus where
  /-- no transaction since the reset -/
  | quiet
  /-- the last transaction was answered so -/
  | answered (a : Answer)
  /-- a transaction is in flight and has no answer yet -/
  | outstanding
  deriving DecidableEq, Repr

/-- The host port: what reaches the block, and the last answer (the model's own fields, log entry 6). -/
structure Port where
  /-- the events still to come, the next one first -/
  inbox : List Event
  /-- the last transaction -/
  status : PortStatus
  deriving DecidableEq, Repr

/-- One stream of environment draws (the model's own fields, log entry 4): the draws lined up for the next uses, and
how many free ones have been used where none was lined up. -/
structure Draws (α : Type) where
  /-- the draws lined up, the next one first -/
  lined : List α
  /-- how many unconstrained draws have been taken -/
  taken : Nat
  deriving DecidableEq, Repr

/-- The environment's draws (00_scope.md R9; log entry 4). -/
structure Env where
  /-- samples of the TIMER port (60_exceptions.md R176) -/
  timer : Draws Word
  /-- results of the flash driver's calls (20_memory.md R47, R48) -/
  result : Draws FlashResult
  /-- what each byte of a failed or interrupted flash operation holds (20_memory.md R47, R48) -/
  torn : Draws TornByte
  /-- which value of CURSOR survives a reset on its update (20_memory.md R52(b)) -/
  commit : Draws Commit
  deriving DecidableEq, Repr

/-- The state of the machine. -/
structure State where
  /-- unit SYS -/
  sys : Sys
  /-- unit JIT -/
  jit : Jit
  /-- unit MOT -/
  mot : Mot
  /-- unit COD -/
  cod : Cod
  /-- unit LOG, the retention word and the flash log region -/
  log : Log
  /-- the host port -/
  port : Port
  /-- the environment's draws -/
  env : Env
  deriving DecidableEq, Repr

/-- Why a step stops. No command ever does: every transaction has a defined outcome (70_reset_and_hazards.md R217). -/
inductive Fault where
  /-- Raised by `step` alone, when the next event is a request while a transaction is in flight: the host waits for each
  answer, so the spec gives this no move (20_memory.md R45, 60_exceptions.md R190). SAFE: nothing is proved about what
  the block would do. -/
  | requestWhileOutstanding
  deriving DecidableEq, Repr

/-- Why an instruction is refused. -/
inductive Refusal where
  /-- Raised by an arm of `exec` whose instruction has no meaning yet; no arm is left so. SAFE. -/
  | notModelled (mnemonic : String)
  deriving DecidableEq, Repr

/-- A stream with no draw lined up and none taken. -/
def noDraws {α : Type} : Draws α :=
  { lined := [], taken := 0 }

/-- The state after a COLD reset with nothing known of the flash contents, every register at the value of
10_state.md R39, in the configuration `p`. -/
def initialState (p : Params) : State where
  sys := { cmd := 0x00000000#32, rc := 0#4, res := 0x00000000#32 }
  jit := { arg := 0#32, v1 := p.v1Init, v2 := p.v2Init, seed := p.seedInit }
  mot :=
    { sample := ⟨0#16, 0#16, 0#16⟩
      buf := List.replicate p.depth ⟨0#16, 0#16, 0#16⟩
      sum := ⟨0#32, 0#32, 0#32⟩
      pos := 0#8
      warm := false
      ticks := 0#8 }
  cod :=
    { uid := Vector.replicate 4 0#32
      tagId := 0#16
      idValid := false
      txLevel := 0#1
      txSeq := 0#16
      battery := 0#8
      peerLast := 0#16
      peerLow := 0#16
      peerHigh := 0#16
      frame := Vector.replicate 20 0x00#8
      fstate := .empty }
  log := { cursor := 0#32, phase := .idle, flash := [] }
  port := { inbox := [], status := .quiet }
  env := { timer := noDraws, result := noDraws, torn := noDraws, commit := noDraws }

/-- The machine right after reset: a COLD reset, the first power-up of the retention domain (10_state.md R39,
70_reset_and_hazards.md R196). -/
def State.reset : State :=
  initialState Config.params

end Sys2Proof.Machine
end

