-- ==== Sys2Proof/Machine/Flags.lean ====
section
/-! DEFINITION. The five flags and the register STATUS (10_state.md R13, R17, R28). There are no arithmetic condition
codes. -/

namespace Sys2Proof.Machine

/-- MOVING: `TICKS > 0` (10_state.md R13, 41_motion.md R96). -/
def moving (s : State) : Bool :=
  decide (0 < s.mot.ticks.toNat)

/-- LOGFULL: `CURSOR + ENTRY_BYTES > LOG_CAPACITY`, compared as integers (10_state.md R13, 43_log.md R132). -/
def logFull (p : Params) (s : State) : Bool :=
  decide (p.logCapacity.val < s.log.cursor.toNat + entryBytes)

/-- The number of a value of FSTATE (10_state.md R28). -/
def FState.number : FState → BitVec 2
  | .empty => 0#2
  | .built => 1#2
  | .raw => 2#2
  | .verified => 3#2

/-- STATUS: computed at each read; bits 31:9, 7:6 and 3 read 0 (10_state.md R17). -/
def statusWord (p : Params) (s : State) : Word :=
  0#23 ++ BitVec.ofBool (logFull p s) ++ 0#2 ++ s.cod.fstate.number ++ 0#1 ++ BitVec.ofBool s.cod.idValid ++
    BitVec.ofBool s.mot.warm ++ BitVec.ofBool (moving s)

end Sys2Proof.Machine
end

