-- ==== Sys2Proof/Machine/Bytes.lean ====
section
/-! DEFINITION. Byte order: big-endian fields (20_memory.md R50, 30_encoding.md R69) and the packing of byte
arrays into 32-bit registers (00_scope.md R6). -/

namespace Sys2Proof.Machine

/-- `be16(v)`: most significant byte first (00_scope.md R5). -/
def be16 (v : Half) : List Byte :=
  [v.extractLsb' 8 8, v.extractLsb' 0 8]

/-- `be32(v)`: the bytes `v[31:24], v[23:16], v[15:8], v[7:0]` (00_scope.md R5). -/
def be32 (v : Word) : List Byte :=
  [v.extractLsb' 24 8, v.extractLsb' 16 8, v.extractLsb' 8 8, v.extractLsb' 0 8]

/-- `from_be16(B)` of the two bytes `hi`, `lo` (00_scope.md R5). -/
def fromBe16 (hi lo : Byte) : Half :=
  hi ++ lo

/-- Four bytes as one word, the lowest index in the most significant byte (00_scope.md R6). -/
def packWord (b0 b1 b2 b3 : Byte) : Word :=
  b0 ++ b1 ++ b2 ++ b3

/-- `unpack(W)` of a list of words: byte `4i + j` is bits `[31-8j : 24-8j]` of word i (00_scope.md R6). -/
def unpack : List Word → List Byte
  | [] => []
  | w :: ws => be32 w ++ unpack ws

/-- The word `F_i` of the frame window: bytes `4i` to `4i+3` of FRAME (10_state.md R27). -/
def frameWord (i : Fin 5) (f : Frame) : Word :=
  packWord f[4 * i.val] f[4 * i.val + 1] f[4 * i.val + 2] f[4 * i.val + 3]

/-- FRAME with the four bytes of `F_i` replaced by those of the word `w` (10_state.md R27). -/
def setFrameWord (i : Fin 5) (w : Word) (f : Frame) : Frame :=
  (((f.set (4 * i.val) (w.extractLsb' 24 8)).set (4 * i.val + 1) (w.extractLsb' 16 8)).set
    (4 * i.val + 2) (w.extractLsb' 8 8)).set (4 * i.val + 3) (w.extractLsb' 0 8)

end Sys2Proof.Machine
end

