-- ==== Sys2Proof/Machine/Ops.lean ====
section
/-! DEFINITION. The operations the meanings share: the end of a command, the environment's draws, and the calls of the
collaborators (timer, checksum, cipher, flash driver). The block takes no exception: failing and succeeding commands
alike end in `ret` (60_exceptions.md R165, R171, R172). -/

namespace Sys2Proof.Machine

/-- The return codes by name (60_exceptions.md R166). -/
inductive RetCode where
  | ok | rejected | storageFull | writeFail | eraseFail | errRange | errSeq | errNoid | errIdset | errCursor | errIllegal
  deriving DecidableEq, Repr

/-- The number of a return code (60_exceptions.md R166). -/
def RetCode.number : RetCode → BitVec 4
  | .ok => 0#4
  | .rejected => 1#4
  | .storageFull => 2#4
  | .writeFail => 3#4
  | .eraseFail => 4#4
  | .errRange => 5#4
  | .errSeq => 6#4
  | .errNoid => 7#4
  | .errIdset => 8#4
  | .errCursor => 9#4
  | .errIllegal => 10#4

/-- `return (rc, res)`: `RC <- rc`, `RES <- res` and nothing else (60_exceptions.md R165). -/
def ret (rc : RetCode) (res : Word) (s : State) : State :=
  { s with sys.rc := rc.number, sys.res := res }

/-- `CMD <- w` (30_encoding.md R61 step 1). -/
def setCmd (w : Word) (s : State) : State :=
  { s with sys.cmd := w }

/-- `PHASE <- ph` (10_state.md R38). -/
def setPhase (ph : Phase) (s : State) : State :=
  { s with log.phase := ph }

/-- `FSTATE <- t` (10_state.md R28). -/
def setFState (t : FState) (s : State) : State :=
  { s with cod.fstate := t }

/-- One draw of the environment: the next one lined up, or else a free value (00_scope.md R9; log entry 4). -/
def draw {α : Type} (free : Nat → α) (q : Draws α) : α × Draws α :=
  match q.lined with
  | v :: vs => (v, { q with lined := vs })
  | [] => (free q.taken, { q with taken := q.taken + 1 })

/-- `TimerSample()`: the value of exactly one sample of the TIMER port (60_exceptions.md R176). -/
def timerSample (s : State) : Word :=
  (draw Config.freeTimer s.env.timer).1

/-- The state once that one sample has been taken: nothing of the block changes (60_exceptions.md R176). -/
def timerTaken (s : State) : State :=
  { s with env.timer := (draw Config.freeTimer s.env.timer).2 }

/-- `ENC(B, KEY)`: the cipher invoked on the 20 bytes of the frame with `blockCount = FRAME_BLOCKS` and `KEY`
(42_codec.md R110, 60_exceptions.md R178). -/
def encFrame (p : Params) (f : Frame) : Frame :=
  p.cipher frameBlocks p.key f

/-- `DEC(B, KEY)`: the inverse invocation, with the same block count and key (42_codec.md R110, 60_exceptions.md
R178). -/
def decFrame (p : Params) (f : Frame) : Frame :=
  (p.cipher frameBlocks p.key).symm f

/-- The flash bytes from `a` on after an operation that was to store `new` there failed or was cut off: each byte
unchanged, or the new one, or any other value, one draw per byte; nothing outside changes (20_memory.md R47, R48). -/
def tearBytes (m : Memory) (a : Nat) (new : List Byte) (q : Draws TornByte) : Memory × Draws TornByte :=
  match new with
  | [] => (m, q)
  | b :: bs =>
    match (draw Config.freeTornByte q).1 with
    | .old => tearBytes m (a + 1) bs (draw Config.freeTornByte q).2
    | .new => tearBytes (Memory.write a b m) (a + 1) bs (draw Config.freeTornByte q).2
    | .other x => tearBytes (Memory.write a x m) (a + 1) bs (draw Config.freeTornByte q).2

/-- The flash region torn at the offsets from `a` on, where `new` was to be stored (20_memory.md R47, R48). -/
def tearFlash (a : Nat) (new : List Byte) (s : State) : State :=
  { s with
    log.flash := (tearBytes s.log.flash a new s.env.torn).1
    env.torn := (tearBytes s.log.flash a new s.env.torn).2 }

/-- What the flash driver's next call reports (60_exceptions.md R179). -/
def flashResult (s : State) : FlashResult :=
  (draw Config.freeFlashResult s.env.result).1

/-- The state once that result has been drawn. -/
def resultTaken (s : State) : State :=
  { s with env.result := (draw Config.freeFlashResult s.env.result).2 }

/-- `MemWrite(addr, n, v)`, the state it leaves: on `ok` the bytes `v` stand at `addr` and no other byte has changed; on
`fail` those bytes are torn (20_memory.md R47). -/
def memWrite (addr : Nat) (v : List Byte) (s : State) : State :=
  match flashResult s with
  | .ok => { resultTaken s with log.flash := Memory.writeBytes s.log.flash addr v }
  | .fail => tearFlash addr v (resultTaken s)

/-- The whole region after a successful erase: every byte `ERASED_BYTE` (20_memory.md R48). -/
def erasedRegion (p : Params) : List Byte :=
  List.replicate p.logCapacity.val p.erasedByte

/-- `FlashErase()`, the state it leaves: on `ok` every byte of the region is `ERASED_BYTE`; on `fail` every byte is
unchanged or any other value (20_memory.md R48). -/
def flashErase (p : Params) (s : State) : State :=
  match flashResult s with
  | .ok => { resultTaken s with log.flash := Memory.ofBytes 0 (erasedRegion p) }
  | .fail => tearFlash 0 (erasedRegion p) (resultTaken s)

/-- `MemRead(addr, n)`: defined for `addr + n <= LOG_CAPACITY`; `none` outside, and where a byte is unspecified. No command
uses it: it says what the log holds (20_memory.md R46). -/
def memRead (p : Params) (s : State) (addr n : Nat) : Option (List Byte) :=
  if addr + n ≤ p.logCapacity.val then Memory.readBytes s.log.flash addr n else none

/-- The transaction's answer is given (20_memory.md R45). -/
def giveAnswer (a : Answer) (s : State) : State :=
  { s with port.status := .answered a }

/-- The block stands inside a transaction and has given no answer (20_memory.md R45). -/
def leaveOutstanding (s : State) : State :=
  { s with port.status := .outstanding }

/-- `(err = 0, rdata)` (20_memory.md R41, R42). -/
def goodAnswer (rdata : Word) : Answer :=
  { err := false, rdata := rdata }

/-- `(err = 1, rdata = 0)`: a bus error (20_memory.md R43, R44). -/
def busError : Answer :=
  { err := true, rdata := 0#32 }

end Sys2Proof.Machine
end

