-- ==== Sys2Proof/Machine/Codec.lean ====
section
/-! DEFINITION. Unit COD: frame assembly and the commands ENCODE, ENCRYPT and VERIFY (42_codec.md R106 to R113). -/

namespace Sys2Proof.Machine

/-- The flags byte: `FLAG_MOVING` when TICKS > 0, else 0x00 (30_encoding.md R71, 42_codec.md R106). -/
def flagsByte (p : Params) (s : State) : Byte :=
  if moving s then p.flagMoving else 0x00#8

/-- Bytes 0 to 17 of the frame ENCODE builds with the timer sample `t` (30_encoding.md R70, 42_codec.md R106). -/
def frameBody (p : Params) (t : Word) (s : State) : List Byte :=
  [p.protoBeacontracker] ++ be16 s.cod.tagId ++ [flagsByte p s] ++ be32 t ++ [s.cod.txLevel.zeroExtend 8] ++
    be16 s.cod.txSeq ++ be16 s.cod.peerLast ++ be16 s.cod.peerLow ++ be16 s.cod.peerHigh ++ [s.cod.battery]

/-- The checksum of the frame ENCODE builds: over bytes 0 to 17 in index order (42_codec.md R107). -/
def frameCrc (p : Params) (t : Word) (s : State) : Half :=
  p.crc16 (frameBody p t s)

/-- The 20 bytes ENCODE builds: the body and the checksum, most significant byte first (42_codec.md R106, R107). -/
def builtFrame (p : Params) (t : Word) (s : State) : Frame :=
  ⟨(frameBody p t s ++ be16 (frameCrc p t s)).toArray, rfl⟩

/-- ENCODE in the configuration `p` (42_codec.md R106): refused without an identity, with the timer not sampled. -/
def encodeFrame (p : Params) (s : State) : State :=
  if s.cod.idValid then
    ret .ok ((frameCrc p (timerSample s) s).zeroExtend 32)
      { timerTaken s with cod.frame := builtFrame p (timerSample s) s, cod.fstate := .built }
  else ret .errNoid 0#32 s

/-- ENCRYPT in the configuration `p` (42_codec.md R109): refused unless FSTATE is BUILT. -/
def encryptFrame (p : Params) (s : State) : State :=
  if s.cod.fstate = .built then
    ret .ok 0#32 { s with cod.frame := encFrame p s.cod.frame, cod.fstate := .raw }
  else ret .errSeq 0#32 s

/-- The checksum VERIFY recomputes: over bytes 0 to 17 of the plaintext (42_codec.md R107, R112). -/
def computedCrc (p : Params) (f : Frame) : Half :=
  p.crc16 (f.toList.take 18)

/-- The checksum embedded in a frame: bytes 18 and 19 (42_codec.md R112). -/
def embeddedCrc (f : Frame) : Half :=
  fromBe16 f[18] f[19]

/-- The object-ID of a frame: bytes 1 and 2 (42_codec.md R111). -/
def frameOid (f : Frame) : Half :=
  fromBe16 f[1] f[2]

/-- The peer statistics after an accepted frame `f` (42_codec.md R113): PEERLAST takes its object-ID; the strength byte
0x00 counts as low, 0x01 as high, any other value as neither; the counters wrap. -/
def accountPeer (f : Frame) (c : Cod) : Cod :=
  { c with
    peerLast := frameOid f
    peerLow := if f[8] = 0x00#8 then c.peerLow + 1#16 else c.peerLow
    peerHigh := if f[8] = 0x01#8 then c.peerHigh + 1#16 else c.peerHigh }

/-- VERIFY in the configuration `p` (42_codec.md R111): refused unless FSTATE is RAW; the frame is decrypted in place even
when it is rejected; the checksum is tested first, then the protocol tag (R112). -/
def verifyFrame (p : Params) (s : State) : State :=
  if s.cod.fstate = .raw then
    let f := decFrame p s.cod.frame
    if computedCrc p f = embeddedCrc f then
      if f[0] = p.protoBeacontracker then
        ret .ok ((frameOid f).zeroExtend 32)
          { s with cod := { accountPeer f s.cod with frame := f, fstate := .verified } }
      else ret .rejected 2#32 { s with cod.frame := f, cod.fstate := .empty }
    else ret .rejected 1#32 { s with cod.frame := f, cod.fstate := .empty }
  else ret .errSeq 0#32 s

/-- ENCODE (42_codec.md R106). -/
def execEncode (s : State) : Host.Outcome State Fault Refusal :=
  .next (encodeFrame Config.params s)

/-- ENCRYPT (42_codec.md R109). -/
def execEncrypt (s : State) : Host.Outcome State Fault Refusal :=
  .next (encryptFrame Config.params s)

/-- VERIFY (42_codec.md R111). -/
def execVerify (s : State) : Host.Outcome State Fault Refusal :=
  .next (verifyFrame Config.params s)

end Sys2Proof.Machine
end

