-- ==== Sys2Proof/Machine/Jitter.lean ====
section
/-! DEFINITION. Unit JIT: the multiply-with-carry step and the commands NEXT and NEXTI (40_jitter.md R81 to R83). -/

namespace Sys2Proof.Machine

/-- `mwc(a, v) = a * v[15:0] + v[31:16]` (40_jitter.md R81). -/
def mwc (a : Nat) (v : Word) : Word :=
  BitVec.ofNat 32 (a * (v.extractLsb' 0 16).toNat + (v.extractLsb' 16 16).toNat)

/-- The words of the unit after one draw with the timer sample `t` (40_jitter.md R82): each recurrence on its own word
alone, and the sample added into SEED modulo 2^32. -/
def advanceJit (p : Params) (t : Word) (j : Jit) : Jit :=
  { j with v1 := mwc p.mwcA1 j.v1, v2 := mwc p.mwcA2 j.v2, seed := j.seed + t }

/-- `mix`: the exclusive-or of the three words (40_jitter.md R82). -/
def jitMix (j : Jit) : Word :=
  (j.v1 ^^^ j.v2) ^^^ j.seed

/-- One draw with the given range (40_jitter.md R82): refused when the range is 0, with the timer not sampled; otherwise
one timer sample, all three words advanced, and `umod(mix, range)` of the new words. -/
def drawJitter (p : Params) (range : Word) (s : State) : State :=
  if range = 0#32 then ret .errRange 0#32 s
  else
    ret .ok (BitVec.ofNat 32 ((jitMix (advanceJit p (timerSample s) s.jit)).toNat % range.toNat))
      { timerTaken s with jit := advanceJit p (timerSample s) s.jit }

/-- NEXT: the range is ARG (40_jitter.md R82). -/
def execNext (s : State) : Host.Outcome State Fault Refusal :=
  .next (drawJitter Config.params s.jit.arg s)

/-- NEXTI: the range is the immediate; ARG is neither read nor written (40_jitter.md R83). -/
def execNexti (imm : Word) (s : State) : Host.Outcome State Fault Refusal :=
  .next (drawJitter Config.params imm s)

end Sys2Proof.Machine
end

