-- ==== Sys2Proof/Machine/LogWriter.lean ====
section
/-! DEFINITION. Unit LOG: the commands APPEND and ERASE as the sub-steps between which a reset can fall
(43_log.md R130 to R142). -/

namespace Sys2Proof.Machine

/-- Bytes 0 to 25 of the entry for the frame `f` captured at the timer sample `t` (30_encoding.md R72). -/
def entryBody (p : Params) (t : Word) (f : Frame) : List Byte :=
  [p.entryTypeBeacon, BitVec.ofNat 8 entryBytes] ++ be32 t ++ f.toList

/-- The 28 bytes of the entry: the body and the outer checksum over it, big-endian (43_log.md R133). -/
def logEntry (p : Params) (t : Word) (f : Frame) : List Byte :=
  entryBody p t f ++ be16 (p.crc16 (entryBody p t f))

/-- APPEND up to the envelope (43_log.md R130): the tests ERR_SEQ, ERR_CURSOR and STORAGE_FULL in that order, the frame
consumed after the first of them (R142), then one timer sample. `error` is the state of an APPEND that has returned;
`ok` gives the entry and the state in which it is built. -/
def appendPrepare (p : Params) (s : State) : Except State (List Byte × State) :=
  if s.cod.fstate = .verified then
    if s.log.cursor.toNat % entryBytes = 0 then
      if logFull p s then .error (ret .storageFull s.log.cursor (setFState .empty s))
      else .ok (logEntry p (timerSample s) s.cod.frame, timerTaken (setFState .empty s))
    else .error (ret .errCursor s.log.cursor (setFState .empty s))
  else .error (ret .errSeq 0#32 s)

/-- The flash write of the entry at CURSOR (43_log.md R130, R134): on failure PHASE is IDLE again and APPEND has returned
WRITE_FAIL; on success PHASE is A_COMMIT. -/
def appendWrite (entry : List Byte) (s : State) : Except State State :=
  match flashResult s with
  | .ok => .ok (setPhase .aCommit (memWrite s.log.cursor.toNat entry s))
  | .fail => .error (ret .writeFail s.log.cursor (setPhase .idle (memWrite s.log.cursor.toNat entry s)))

/-- The next free offset, `CURSOR + ENTRY_BYTES` (43_log.md R130). -/
def nextCursor (s : State) : Word :=
  s.log.cursor + BitVec.ofNat 32 entryBytes

/-- The cursor update, one atomic write, after which PHASE is IDLE (43_log.md R135). -/
def appendCommit (s : State) : State :=
  { s with log.cursor := nextCursor s, log.phase := .idle }

/-- APPEND in the configuration `p` (43_log.md R130). -/
def append (p : Params) (s : State) : State :=
  match appendPrepare p s with
  | .error t => t
  | .ok (entry, t) =>
    match appendWrite entry (setPhase (.aWrite entry) t) with
    | .error u => u
    | .ok u => ret .ok (appendCommit u).log.cursor (appendCommit u)

/-- The states APPEND passes through, in order, the one it ends in last (43_log.md R130, R136): at the start, with the
entry built, with the flash write in progress, with it done, with the cursor written, and returned. -/
def appendStates (p : Params) (s : State) : List State :=
  match appendPrepare p s with
  | .error t => [s, t]
  | .ok (entry, t) =>
    match appendWrite entry (setPhase (.aWrite entry) t) with
    | .error u => [s, t, setPhase (.aWrite entry) t, u]
    | .ok u =>
      [s, t, setPhase (.aWrite entry) t, u, appendCommit u, ret .ok (appendCommit u).log.cursor (appendCommit u)]

/-- ERASE with the cursor about to be rewound (43_log.md R139). -/
def eraseStart (s : State) : State :=
  setPhase .eCommit s

/-- The cursor rewound, before the erase begins (43_log.md R140). -/
def eraseRewind (s : State) : State :=
  { s with log.cursor := 0#32, log.phase := .eErase }

/-- The driver's erase has returned and PHASE is IDLE (43_log.md R139). -/
def eraseRegion (p : Params) (s : State) : State :=
  setPhase .idle (flashErase p s)

/-- The code ERASE returns, from what the driver reported (43_log.md R139). -/
def eraseCode : FlashResult → RetCode
  | .ok => .ok
  | .fail => .eraseFail

/-- ERASE in the configuration `p` (43_log.md R139): the cursor first, then the region. -/
def eraseLog (p : Params) (s : State) : State :=
  ret (eraseCode (flashResult s)) 0#32 (eraseRegion p (eraseRewind (eraseStart s)))

/-- The states ERASE passes through, in order, the one it ends in last (43_log.md R139, R141). -/
def eraseStates (p : Params) (s : State) : List State :=
  [s, eraseStart s, eraseRewind (eraseStart s), eraseRegion p (eraseRewind (eraseStart s)), eraseLog p s]

/-- APPEND (43_log.md R130). -/
def execAppend (s : State) : Host.Outcome State Fault Refusal :=
  .next (append Config.params s)

/-- ERASE (43_log.md R139). -/
def execErase (s : State) : Host.Outcome State Fault Refusal :=
  .next (eraseLog Config.params s)

end Sys2Proof.Machine
end

