-- ==== Sys2Proof/Machine/Motion.lean ====
section
/-! DEFINITION. Unit MOT: the command OBSERVE, step by step (41_motion.md R91 to R96). -/

namespace Sys2Proof.Machine

/-- The slot OBSERVE is about to overwrite, `BUF[POS]` (41_motion.md R92). (A POS outside the buffer, which no run
reaches, reads as a zero sample.) -/
def oldSample (m : Mot) : Axes Half :=
  m.buf.getD m.pos.toNat ⟨0#16, 0#16, 0#16⟩

/-- `SUMa + s.a - old.a` on integers, as the 32-bit register holds it (41_motion.md R91, R92). -/
def slideSum (sum : Word) (new old : Half) : Word :=
  BitVec.ofInt 32 (sum.toInt + new.toInt - old.toInt)

/-- The three sums after step 1 (41_motion.md R92). -/
def slideSums (m : Mot) : Axes Word :=
  { x := slideSum m.sum.x m.sample.x (oldSample m).x
    y := slideSum m.sum.y m.sample.y (oldSample m).y
    z := slideSum m.sum.z m.sample.z (oldSample m).z }

/-- `POS` after step 2: one further, modulo DEPTH (41_motion.md R93). -/
def nextPos (p : Params) (m : Mot) : Byte :=
  BitVec.ofNat 8 ((m.pos.toNat + 1) % p.depth)

/-- One axis: `abs(tdiv(SUMa, DEPTH) - s.a)`, the division rounding toward zero (41_motion.md R95). -/
def deviation (p : Params) (sum : Word) (sample : Half) : Nat :=
  (sum.toInt.tdiv (p.depth : Int) - sample.toInt).natAbs

/-- Whether a sample qualifies: the deviation of any axis is strictly above THRESHOLD; `sum` is the sum after step 1
(41_motion.md R95). -/
def qualifies (p : Params) (sum : Axes Word) (sample : Axes Half) : Bool :=
  decide (p.threshold < deviation p sum.x sample.x) || decide (p.threshold < deviation p sum.y sample.y) ||
    decide (p.threshold < deviation p sum.z sample.z)

/-- TICKS after a classified OBSERVE: set to MAX_TICKS when the sample qualifies, else one less down to 0
(41_motion.md R95). -/
def nextTicks (p : Params) (qualified : Bool) (ticks : Byte) : Byte :=
  if qualified then BitVec.ofNat 8 p.maxTicks
  else if 0 < ticks.toNat then ticks - 1#8
  else ticks

/-- The unit after one OBSERVE (41_motion.md R91): while WARM = 0 no classification takes place, and the OBSERVE after
which POS is 0 again sets WARM (R94). -/
def observeMot (p : Params) (m : Mot) : Mot :=
  { m with
    buf := m.buf.set m.pos.toNat m.sample
    sum := slideSums m
    pos := nextPos p m
    warm := m.warm || decide (nextPos p m = 0#8)
    ticks := if m.warm then nextTicks p (qualifies p (slideSums m) m.sample) m.ticks else m.ticks }

/-- OBSERVE in the configuration `p`: the result is the new TICKS (41_motion.md R91, R96). -/
def observe (p : Params) (s : State) : State :=
  ret .ok ((observeMot p s.mot).ticks.zeroExtend 32) { s with mot := observeMot p s.mot }

/-- OBSERVE (41_motion.md R91). -/
def execObserve (s : State) : Host.Outcome State Fault Refusal :=
  .next (observe Config.params s)

end Sys2Proof.Machine
end

