-- ==== Sys2Proof/Machine/System.lean ====
section
/-! DEFINITION. Unit SYS and the identity: NOP, SETID, and what an illegal command word does (44_system.md R150, R151,
30_encoding.md R66). -/

namespace Sys2Proof.Machine

/-- An illegal command word: `return (ERR_ILLEGAL, 0)` (30_encoding.md R66). CMD has been stored before (R61). -/
def illegalCommand (s : State) : State :=
  ret .errIllegal 0#32 s

/-- SETID in the configuration `p` (44_system.md R151): refused with the present TAGID once an identity is set;
otherwise TAGID is the checksum of the sixteen UID bytes in index order. -/
def deriveIdentity (p : Params) (s : State) : State :=
  if s.cod.idValid then ret .errIdset (s.cod.tagId.zeroExtend 32) s
  else
    ret .ok ((p.crc16 (unpack s.cod.uid.toList)).zeroExtend 32)
      { s with cod.tagId := p.crc16 (unpack s.cod.uid.toList), cod.idValid := true }

/-- NOP (44_system.md R150). -/
def execNop (s : State) : Host.Outcome State Fault Refusal :=
  .next (ret .ok 0#32 s)

/-- SETID (44_system.md R151). -/
def execSetid (s : State) : Host.Outcome State Fault Refusal :=
  .next (deriveIdentity Config.params s)

end Sys2Proof.Machine
end

