-- ==== Sys2Proof/Machine/Dispatch.lean ====
section
/-! DEFINITION. One arm per command of 30_encoding.md R65. -/

namespace Sys2Proof.Machine

def exec (i : Instr) (s : State) : Host.Outcome State Fault Refusal :=
  match i with
  | .nop => Sys2Proof.Machine.execNop s
  | .setid => Sys2Proof.Machine.execSetid s
  | .next => Sys2Proof.Machine.execNext s
  | .nexti imm => Sys2Proof.Machine.execNexti imm s
  | .observe => Sys2Proof.Machine.execObserve s
  | .encode => Sys2Proof.Machine.execEncode s
  | .encrypt => Sys2Proof.Machine.execEncrypt s
  | .verify => Sys2Proof.Machine.execVerify s
  | .append => Sys2Proof.Machine.execAppend s
  | .erase => Sys2Proof.Machine.execErase s

end Sys2Proof.Machine
end

