-- ==== Sys2Proof/WellFormed.lean ====
section
/-! DEFINITION. Which terms of the syntax an encoding can hold. -/

namespace Sys2Proof

/-- A command is well-formed when its immediate fits in `imm24`: `0 <= imm <= 0xFFFFFF` (30_encoding.md R64, R67). Every
other command has no operand. -/
def Instr.wellFormed : Instr → Bool
  | .nop => true
  | .setid => true
  | .next => true
  | .nexti imm => decide (imm.toNat ≤ 0xFFFFFF)
  | .observe => true
  | .encode => true
  | .encrypt => true
  | .verify => true
  | .append => true
  | .erase => true

/-- A statement is well-formed when its command is (30_encoding.md R67). -/
def Stmt.wellFormed : Stmt → Bool
  | .wr _ _ => true
  | .rd _ => true
  | .command i => i.wellFormed
  | .reset _ => true

end Sys2Proof
end

