-- ==== Sys2Proof/Decode.lean ====
section
/-! DEFINITION. Decoding and encoding: command words (30_encoding.md R60 to R66), register numbers (10_state.md R10),
and the request and answer tuples of the host port (20_memory.md R45). -/

namespace Sys2Proof

/-- Why a word is no command (30_encoding.md R66). An illegal word is not a stop: it executes as
`return (ERR_ILLEGAL, 0)`. -/
inductive Illegal where
  /-- bits 31:24 are none of the ten opcodes -/
  | unassignedOpcode (opcode : Byte)
  /-- a format-Z opcode with `w[23:0] != 0` -/
  | lowBitsSet (opcode : Byte) (low : BitVec 24)
  deriving DecidableEq, Repr

/-- A format-Z row: it matches when the low 24 bits are zero (30_encoding.md R62). -/
def decodeZ (op : Byte) (low : BitVec 24) (i : Instr) : Except Illegal Instr :=
  if low = 0#24 then .ok i else .error (.lowBitsSet op low)

/-- The opcode map of 30_encoding.md R65, from the opcode and the low 24 bits; total, rejecting by name (R66). -/
def decodeFields (op : Byte) (low : BitVec 24) : Except Illegal Instr :=
  if op = 0x00#8 then decodeZ op low .nop
  else if op = 0x01#8 then decodeZ op low .setid
  else if op = 0x10#8 then decodeZ op low .next
  else if op = 0x11#8 then .ok (.nexti (low.zeroExtend 32))
  else if op = 0x20#8 then decodeZ op low .observe
  else if op = 0x30#8 then decodeZ op low .encode
  else if op = 0x31#8 then decodeZ op low .encrypt
  else if op = 0x32#8 then decodeZ op low .verify
  else if op = 0x40#8 then decodeZ op low .append
  else if op = 0x41#8 then decodeZ op low .erase
  else .error (.unassignedOpcode op)

/-- Decoding of a command word: `op = w[31:24]`, `low = w[23:0]` (30_encoding.md R65). -/
def decode (w : Word) : Except Illegal Instr :=
  decodeFields (w.extractLsb' 24 8) (w.extractLsb' 0 24)

/-- The word of a well-formed command, written from the column "word (hex)" of 30_encoding.md R65; for NEXTI
`0x11000000` with `imm24` in bits 23:0 (R64). -/
def encode : Instr → Word
  | .nop => 0x00000000#32
  | .setid => 0x01000000#32
  | .next => 0x10000000#32
  | .nexti imm => 0x11#8 ++ imm.extractLsb' 0 24
  | .observe => 0x20000000#32
  | .encode => 0x30000000#32
  | .encrypt => 0x31000000#32
  | .verify => 0x32000000#32
  | .append => 0x40000000#32
  | .erase => 0x41000000#32

/-- What the decoder reads from an instruction whose `nbits` low bits are `w` and whose other bits are 0. A command is
one 32-bit word carried whole on the host port (30_encoding.md R60, 20_memory.md R52(a)): no byte order enters. -/
def decodeTableWord (nbits w : Nat) : Option Instr :=
  match decode (BitVec.ofNat 32 (w % 2 ^ nbits)) with
  | .ok i => some i
  | .error _ => none

/-- The register a register number names (10_state.md R10); `none` for the unimplemented numbers 0x13, 0x19 to 0x1B,
0x1E, 0x1F and 0x28 to 0xFF (20_memory.md R43). -/
def regOfNumber (rn : Byte) : Option Reg :=
  match rn.toNat with
  | 0x00 => some .cmd
  | 0x01 => some .rc
  | 0x02 => some .res
  | 0x03 => some .status
  | 0x04 => some .arg
  | 0x05 => some .sx
  | 0x06 => some .sy
  | 0x07 => some .sz
  | 0x08 => some (.uid 0)
  | 0x09 => some (.uid 1)
  | 0x0A => some (.uid 2)
  | 0x0B => some (.uid 3)
  | 0x0C => some .tagid
  | 0x0D => some .txlevel
  | 0x0E => some .txseq
  | 0x0F => some .battery
  | 0x10 => some .peerlast
  | 0x11 => some .peerlow
  | 0x12 => some .peerhigh
  | 0x14 => some (.f 0)
  | 0x15 => some (.f 1)
  | 0x16 => some (.f 2)
  | 0x17 => some (.f 3)
  | 0x18 => some (.f 4)
  | 0x1C => some .cursor
  | 0x1D => some .logcap
  | 0x20 => some .ticks
  | 0x21 => some .pos
  | 0x22 => some .sumx
  | 0x23 => some .sumy
  | 0x24 => some .sumz
  | 0x25 => some .v1
  | 0x26 => some .v2
  | 0x27 => some .seed
  | _ => none

/-- `rn(NAME)`: the register number of a register (10_state.md R10, 30_encoding.md R67). -/
def numberOfReg : Reg → Byte
  | .cmd => 0x00
  | .rc => 0x01
  | .res => 0x02
  | .status => 0x03
  | .arg => 0x04
  | .sx => 0x05
  | .sy => 0x06
  | .sz => 0x07
  | .uid i => 0x08 + BitVec.ofNat 8 i.val
  | .tagid => 0x0C
  | .txlevel => 0x0D
  | .txseq => 0x0E
  | .battery => 0x0F
  | .peerlast => 0x10
  | .peerlow => 0x11
  | .peerhigh => 0x12
  | .f i => 0x14 + BitVec.ofNat 8 i.val
  | .cursor => 0x1C
  | .logcap => 0x1D
  | .ticks => 0x20
  | .pos => 0x21
  | .sumx => 0x22
  | .sumy => 0x23
  | .sumz => 0x24
  | .v1 => 0x25
  | .v2 => 0x26
  | .seed => 0x27

/-- The 41-bit request tuple `{we[0], rn[7:0], wdata[31:0]}` (20_memory.md R45). DESIGN CHOICE, safe (log entry 21): R45
says only that a read's `wdata` is ignored; the tuple written here for a read carries 0 there. -/
def requestBits : Request → BitVec 41
  | .read rn => 0#1 ++ rn ++ 0#32
  | .write rn wdata => 1#1 ++ rn ++ wdata

/-- The request a 41-bit tuple stands for: `we` is bit 40, and for a read `wdata` is ignored (20_memory.md R45). -/
def requestOfBits (b : BitVec 41) : Request :=
  if b.getLsbD 40 then .write (b.extractLsb' 32 8) (b.extractLsb' 0 32) else .read (b.extractLsb' 32 8)

/-- The 33-bit answer tuple `{err[0], rdata[31:0]}` (20_memory.md R45). -/
def answerBits (a : Answer) : BitVec 33 :=
  BitVec.ofBool a.err ++ a.rdata

/-- The answer a 33-bit tuple stands for (20_memory.md R45). -/
def answerOfBits (b : BitVec 33) : Answer :=
  { err := b.getLsbD 32, rdata := b.extractLsb' 0 32 }

end Sys2Proof
end

