-- ==== Sys2Proof/Machine/Operands.lean ====
section
/-! DEFINITION. The registers as operands: what a read of each register answers and what a write of each stores
(10_state.md R14 to R37, 20_memory.md R41 to R44). -/

namespace Sys2Proof.Machine

/-- The value of a register widened to 32 bits: sign-extended for SX, SY, SZ (and SUMX, SUMY, SUMZ, which are 32 bits
wide), zero-extended for every other (20_memory.md R41). -/
def readReg (p : Params) (r : Reg) (s : State) : Word :=
  match r with
  | .cmd => s.sys.cmd
  | .rc => s.sys.rc.zeroExtend 32
  | .res => s.sys.res
  | .status => statusWord p s
  | .arg => s.jit.arg
  | .sx => s.mot.sample.x.signExtend 32
  | .sy => s.mot.sample.y.signExtend 32
  | .sz => s.mot.sample.z.signExtend 32
  | .uid i => s.cod.uid[i]
  | .tagid => s.cod.tagId.zeroExtend 32
  | .txlevel => s.cod.txLevel.zeroExtend 32
  | .txseq => s.cod.txSeq.zeroExtend 32
  | .battery => s.cod.battery.zeroExtend 32
  | .peerlast => s.cod.peerLast.zeroExtend 32
  | .peerlow => s.cod.peerLow.zeroExtend 32
  | .peerhigh => s.cod.peerHigh.zeroExtend 32
  | .f i => frameWord i s.cod.frame
  | .cursor => s.log.cursor
  | .logcap => BitVec.ofNat 32 p.logCapacity.val
  | .ticks => s.mot.ticks.zeroExtend 32
  | .pos => s.mot.pos.zeroExtend 32
  | .sumx => s.mot.sum.x
  | .sumy => s.mot.sum.y
  | .sumz => s.mot.sum.z
  | .v1 => s.jit.v1
  | .v2 => s.jit.v2
  | .seed => s.jit.seed

/-- What a write of `w` to a register stores: the low bits, as many as the register has (20_memory.md R42); `none` where
the write is refused: a read-only register, or a UID register while IDVALID = 1 (R44). A write to one of F0 to F4
sets FSTATE to RAW (10_state.md R27). For CMD this is the store alone; executing the word is the transaction's
(30_encoding.md R61). -/
def writeReg (r : Reg) (w : Word) (s : State) : Option State :=
  match r with
  | .cmd => some (setCmd w s)
  | .arg => some { s with jit.arg := w }
  | .sx => some { s with mot.sample.x := w.extractLsb' 0 16 }
  | .sy => some { s with mot.sample.y := w.extractLsb' 0 16 }
  | .sz => some { s with mot.sample.z := w.extractLsb' 0 16 }
  | .uid i => if s.cod.idValid then none else some { s with cod.uid := s.cod.uid.set i w }
  | .txlevel => some { s with cod.txLevel := w.extractLsb' 0 1 }
  | .txseq => some { s with cod.txSeq := w.extractLsb' 0 16 }
  | .battery => some { s with cod.battery := w.extractLsb' 0 8 }
  | .peerlast => some { s with cod.peerLast := w.extractLsb' 0 16 }
  | .peerlow => some { s with cod.peerLow := w.extractLsb' 0 16 }
  | .peerhigh => some { s with cod.peerHigh := w.extractLsb' 0 16 }
  | .f i => some { s with cod.frame := setFrameWord i w s.cod.frame, cod.fstate := .raw }
  | .rc => none
  | .res => none
  | .status => none
  | .tagid => none
  | .cursor => none
  | .logcap => none
  | .ticks => none
  | .pos => none
  | .sumx => none
  | .sumy => none
  | .sumz => none
  | .v1 => none
  | .v2 => none
  | .seed => none

end Sys2Proof.Machine
end

