-- ==== Sys2Proof/Machine/Reset.lean ====
section
/-! DEFINITION. The reset move (70_reset_and_hazards.md R195 to R198), enabled in every state, the intermediate states of
APPEND and ERASE that PHASE names among them (43_log.md R136, R141). -/

namespace Sys2Proof.Machine

/-- Which value of CURSOR survives a reset on its update (20_memory.md R52(b)). -/
def commitDraw (s : State) : Commit :=
  (draw Config.freeCommit s.env.commit).1

/-- The state after a reset on the update of CURSOR to `new`: the old value or the new one, never a mixture
(20_memory.md R52(b)). -/
def cutCommit (new : Word) (s : State) : State :=
  { s with
    log.cursor := match commitDraw s with
      | .old => s.log.cursor
      | .new => new
    env.commit := (draw Config.freeCommit s.env.commit).2 }

/-- What a reset leaves of the retention word and the flash region, by the sub-step it falls in (43_log.md R136, R141):
nothing is touched outside APPEND and ERASE; a write or an erase in progress is torn; an update of CURSOR in progress
leaves the old value or the new one. -/
def cutLog (p : Params) (s : State) : State :=
  match s.log.phase with
  | .idle => s
  | .aWrite entry => tearFlash s.log.cursor.toNat entry s
  | .aCommit => cutCommit (nextCursor s) s
  | .eCommit => cutCommit 0#32 s
  | .eErase => tearFlash 0 (erasedRegion p) s

/-- Every element of the volatile domain at its reset value (10_state.md R39, 70_reset_and_hazards.md R195); what `t` holds of
the retention word, the flash region and the environment stays, and the events still to come stay to come. A
transaction in flight gets no answer (R197). -/
def volatileReset (p : Params) (t : State) : State :=
  { initialState p with
    log.cursor := t.log.cursor
    log.flash := t.log.flash
    port.inbox := t.port.inbox
    env := t.env }

/-- A reset of the given kind. WARM keeps CURSOR and the flash region (70_reset_and_hazards.md R195, R198). COLD sets CURSOR
to 0 besides, and the flash contents are what the environment gives as its argument, unspecified past that
(R196, 10_state.md R39). -/
def resetMove (p : Params) (k : ResetKind) (s : State) : State :=
  match k with
  | .warm => volatileReset p (cutLog p s)
  | .cold contents =>
    volatileReset p
      { s with log.cursor := 0#32, log.flash := Memory.ofBytes 0 (contents.take p.logCapacity.val) }

end Sys2Proof.Machine
end

