-- ==== Sys2Proof/Machine/Transaction.lean ====
section
/-! DEFINITION. The host port: what a read, a write and a command do, and the states inside a transaction
(20_memory.md R41 to R45, 30_encoding.md R61, 70_reset_and_hazards.md R197, R198). Everything here takes the configuration
`p` (00_scope.md R3), and what runs a command, `run`, as arguments: `exec`, or `execIn p`. -/

namespace Sys2Proof.Machine

/-- What a command does in a state. -/
abbrev Runner := Instr → State → Host.Outcome State Fault Refusal

/-- The answer to a read: the register's value, or a bus error for an unimplemented number (20_memory.md R41, R43). -/
def readAnswer (p : Params) (rn : Byte) (s : State) : Answer :=
  match regOfNumber rn with
  | some r => goodAnswer (readReg p r s)
  | none => busError

/-- The write transaction that issued a command is answered with `err = 0` whatever the return code
(30_encoding.md R61 step 5). -/
def answerCommand : Host.Outcome State Fault Refusal → Host.Outcome State Fault Refusal
  | .next t => .next (giveAnswer (goodAnswer 0#32) t)
  | .fault r => .fault r
  | .refused r => .refused r

/-- The word `w`, already stored in CMD, executed as a command (30_encoding.md R61 steps 2 to 4). -/
def executeWord (run : Runner) (w : Word) (s : State) : Host.Outcome State Fault Refusal :=
  match decode w with
  | .ok i => run i s
  | .error _ => .next (illegalCommand s)

/-- A write of `w` to CMD: store, execute, answer (30_encoding.md R61). -/
def runCommand (run : Runner) (w : Word) (s : State) : Host.Outcome State Fault Refusal :=
  answerCommand (executeWord run w (setCmd w s))

/-- A write of `w` to a register other than CMD: stored and answered with `err = 0`, or refused with a bus error and no
state change (20_memory.md R42, R44). -/
def storeRegister (r : Reg) (w : Word) (s : State) : State :=
  match writeReg r w s with
  | some t => giveAnswer (goodAnswer 0#32) t
  | none => giveAnswer busError s

/-- One transaction, run to completion and answered (20_memory.md R41 to R45). -/
def transact (p : Params) (run : Runner) (r : Request) (s : State) : Host.Outcome State Fault Refusal :=
  match r with
  | .read rn => .next (giveAnswer (readAnswer p rn s) s)
  | .write rn w =>
    match regOfNumber rn with
    | none => .next (giveAnswer busError s)
    | some .cmd => runCommand run w s
    | some r => .next (storeRegister r w s)

/-- The states a command passes through, in order, the one it ends in last. Only APPEND and ERASE have any between the
first and the last that a reset could tell apart (20_memory.md R53, 70_reset_and_hazards.md R198). -/
def commandStates (p : Params) (i : Instr) (s : State) : List State :=
  match i with
  | .append => appendStates p s
  | .erase => eraseStates p s
  | .nop => [s, ret .ok 0#32 s]
  | .setid => [s, deriveIdentity p s]
  | .next => [s, drawJitter p s.jit.arg s]
  | .nexti imm => [s, drawJitter p imm s]
  | .observe => [s, observe p s]
  | .encode => [s, encodeFrame p s]
  | .encrypt => [s, encryptFrame p s]
  | .verify => [s, verifyFrame p s]

/-- The states a transaction passes through before its answer, in order (30_encoding.md R61, 20_memory.md R52). -/
def requestStates (p : Params) (r : Request) (s : State) : List State :=
  match r with
  | .read _ => [s]
  | .write rn w =>
    match regOfNumber rn with
    | none => [s]
    | some .cmd =>
      match decode w with
      | .ok i => s :: commandStates p i (setCmd w s)
      | .error _ => [s, setCmd w s, illegalCommand (setCmd w s)]
    | some r =>
      match writeReg r w s with
      | some t => [s, t]
      | none => [s]

/-- The state `n` sub-steps into a transaction, or at its end when it has fewer, the answer not yet given
(70_reset_and_hazards.md R197). -/
def stateInside (p : Params) (r : Request) (n : Nat) (s : State) : State :=
  leaveOutstanding ((requestStates p r s).getD n ((requestStates p r s).getLastD s))

/-- What one event does. The block accepts no request while one is outstanding (20_memory.md R45). -/
def takeEvent (p : Params) (run : Runner) (e : Event) (s : State) : Host.Outcome State Fault Refusal :=
  match e with
  | .reset k => .next (resetMove p k s)
  | .request r => if s.port.status = .outstanding then .fault .requestWhileOutstanding else transact p run r s
  | .begun r n =>
    if s.port.status = .outstanding then .fault .requestWhileOutstanding else .next (stateInside p r n s)

end Sys2Proof.Machine
end

