-- ==== Sys2Proof/Machine/Step.lean ====
section
/-! DEFINITION. One step of the machine, in any configuration and with the fixed names' one, and how a command word is put
where the step takes its next one. -/

namespace Sys2Proof.Machine

/-- One step in the configuration `p`, commands run by `run`: the next event happens, whole (00_scope.md R9,
20_memory.md R55). With no event to come nothing changes: the block has no clocked behaviour of its own
(60_exceptions.md R187, 70_reset_and_hazards.md R214). -/
def stepWith (p : Params) (run : Runner) (s : State) : Host.Outcome State Fault Refusal :=
  match s.port.inbox with
  | [] => .next s
  | e :: rest => takeEvent p run e { s with port.inbox := rest }

/-- One step of the machine (00_scope.md R9), in the configuration `Config.params`. -/
def step (s : State) : Host.Outcome State Fault Refusal :=
  stepWith Config.params exec s

/-- `s` with the host's write of the command word `w` to CMD as the next event, on a port with no transaction in flight: what
the very next step runs (log entry 7). -/
def State.withFetchWord (s : State) (nbits w : Nat) : State :=
  { s with
    port :=
      { inbox := .request (.write (numberOfReg .cmd) (BitVec.ofNat 32 (w % 2 ^ nbits))) :: s.port.inbox
        status := .quiet } }

end Sys2Proof.Machine
end

