-- ==== Sys2Proof/Machine/Assembly.lean ====
section
/-! DEFINITION. The assembly notation of the spec as what it puts on the host port: statements (30_encoding.md R67) and
pseudo-instructions (R68). -/

namespace Sys2Proof.Machine

/-- The transactions, or the reset, that a statement stands for (30_encoding.md R67). -/
def stmtEvents : Stmt → List Event
  | .wr r value => [.request (.write (numberOfReg r) value)]
  | .rd r => [.request (.read (numberOfReg r))]
  | .command i => [.request (.write (numberOfReg .cmd) (encode i))]
  | .reset k => [.reset k]

/-- The statements a pseudo-instruction expands to, in order (30_encoding.md R68). -/
def expandPseudo : Pseudo → List Stmt
  | .nextr value => [.wr .arg value, .command .next]
  | .observe3 x y z => [.wr .sx x, .wr .sy y, .wr .sz z, .command .observe]
  | .setuid w0 w1 w2 w3 => [.wr (.uid 0) w0, .wr (.uid 1) w1, .wr (.uid 2) w2, .wr (.uid 3) w3, .command .setid]
  | .ldframe w0 w1 w2 w3 w4 => [.wr (.f 0) w0, .wr (.f 1) w1, .wr (.f 2) w2, .wr (.f 3) w3, .wr (.f 4) w4]
  | .rdframe => [.rd (.f 0), .rd (.f 1), .rd (.f 2), .rd (.f 3), .rd (.f 4)]
  | .status => [.rd .rc, .rd .res]

end Sys2Proof.Machine
end

