-- ==== Sys2Proof/Machine/Configured.lean ====
section
/-! DEFINITION. The machine with the configuration record of 00_scope.md R3 as its argument: what a command does, the step, the
state after reset, and the core. `exec`, `step` and `State.reset` are these with `Config.params`
(`exec_eq_execIn`, `step_eq_stepIn` and `reset_eq_resetIn` in Laws/Step.lean). -/

namespace Sys2Proof.Machine

/-- What a command does in the configuration `p` (30_encoding.md R65). -/
def execIn (p : Params) (i : Instr) (s : State) : Host.Outcome State Fault Refusal :=
  match i with
  | .nop => .next (ret .ok 0#32 s)
  | .setid => .next (deriveIdentity p s)
  | .next => .next (drawJitter p s.jit.arg s)
  | .nexti imm => .next (drawJitter p imm s)
  | .observe => .next (observe p s)
  | .encode => .next (encodeFrame p s)
  | .encrypt => .next (encryptFrame p s)
  | .verify => .next (verifyFrame p s)
  | .append => .next (append p s)
  | .erase => .next (eraseLog p s)

/-- One step in the configuration `p` (00_scope.md R9). -/
def stepIn (p : Params) (s : State) : Host.Outcome State Fault Refusal :=
  stepWith p (execIn p) s

/-- The state after reset in the configuration `p` (10_state.md R39). -/
def resetIn (p : Params) : State :=
  initialState p

/-- The machine of the configuration `p`, in the host's form. -/
def coreIn (p : Params) : Host.Core where
  State := State
  Fault := Fault
  Refusal := Refusal
  step := stepIn p
  reset := resetIn p

end Sys2Proof.Machine
end

