-- ==== Sys2Proof/Safety.lean ====
section
/-! DEFINITION. What counts as a good state, in the terms claims use: the invariants of 10_state.md R39 and those the rules
of single registers state, and sequences of OBSERVE commands. -/

namespace Sys2Proof.Machine

/-- The sum of one axis of the buffer contents, as an integer (10_state.md R32). -/
def axisTotal (axis : Axes Half → Half) (buf : List (Axes Half)) : Int :=
  (buf.map (fun b => (axis b).toInt)).sum

/-- The invariants of unit MOT: the buffer has DEPTH slots (10_state.md R31), and I-SUM, I-POS, I-TICKS, I-WARM (R39). -/
structure MotionOk (p : Params) (m : Mot) : Prop where
  length : m.buf.length = p.depth
  sumX : m.sum.x.toInt = axisTotal Axes.x m.buf
  sumY : m.sum.y.toInt = axisTotal Axes.y m.buf
  sumZ : m.sum.z.toInt = axisTotal Axes.z m.buf
  pos : m.pos.toNat < p.depth
  ticks : m.ticks.toNat ≤ p.maxTicks
  warm : m.warm = false → m.ticks = 0#8

/-- The identity: TAGID is 0 until an identity is set, and the checksum of the UID bytes from then on
(10_state.md R21, 44_system.md R151, R152). -/
structure IdentityOk (p : Params) (c : Cod) : Prop where
  unset : c.idValid = false → c.tagId = 0#16
  derived : c.idValid = true → c.tagId = p.crc16 (unpack c.uid.toList)

/-- A plaintext frame with a correct checksum and the expected protocol tag: what VERIFY accepts (42_codec.md R112). -/
def goodFrame (p : Params) (f : Frame) : Prop :=
  computedCrc p f = embeddedCrc f ∧ f[0] = p.protoBeacontracker

/-- FSTATE tells the truth about FRAME (10_state.md R28): BUILT and VERIFIED only over a good plaintext frame. -/
structure FrameTagOk (p : Params) (c : Cod) : Prop where
  built : c.fstate = .built → goodFrame p c.frame
  verified : c.fstate = .verified → goodFrame p c.frame

/-- The 28 bytes are an entry of the log: the envelope of some good frame, captured at some timer sample
(30_encoding.md R72, 43_log.md R133). -/
def entryOk (p : Params) (e : List Byte) : Prop :=
  ∃ t f, e = logEntry p t f ∧ goodFrame p f

/-- The slot at byte offset `a` of the region holds an entry of the log. -/
def slotOk (p : Params) (m : Memory) (a : Nat) : Prop :=
  ∃ e, m.readBytes a entryBytes = some e ∧ entryOk p e

/-- What PHASE says of the sub-step in progress (43_log.md R130, R136, R139, R141). -/
def phaseOk (p : Params) (l : Log) : Prop :=
  match l.phase with
  | .idle => True
  | .aWrite e => entryOk p e ∧ l.cursor.toNat + entryBytes ≤ p.logCapacity.val
  | .aCommit => slotOk p l.flash l.cursor.toNat ∧ l.cursor.toNat + entryBytes ≤ p.logCapacity.val
  | .eCommit => True
  | .eErase => l.cursor = 0#32

/-- The crash-safety law of the log (43_log.md R137) with I-CUR1 and I-CUR2 (10_state.md R39), and the form of the flash
region: canonical, and inside the region. -/
structure LogOk (p : Params) (l : Log) : Prop where
  aligned : l.cursor.toNat % entryBytes = 0
  inside : l.cursor.toNat ≤ p.logCapacity.val
  flashWf : l.flash.wf
  flashInside : ∀ c ∈ l.flash, c.1 < p.logCapacity.val
  entries : ∀ k, entryBytes * (k + 1) ≤ l.cursor.toNat → slotOk p l.flash (entryBytes * k)
  phase : phaseOk p l

/-- The invariant of the block: every unit, the return code one of the eleven (60_exceptions.md R166), and PHASE is IDLE
unless a transaction is in flight (10_state.md R38). -/
structure Inv (p : Params) (s : State) : Prop where
  rc : s.sys.rc.toNat ≤ 10
  motion : MotionOk p s.mot
  identity : IdentityOk p s.cod
  frameTag : FrameTagOk p s.cod
  log : LogOk p s.log
  phaseIdle : s.port.status ≠ .outstanding → s.log.phase = .idle

/-- `s` with the sample `a` in SX, SY, SZ: the three writes of `observe3` (30_encoding.md R68). -/
def withSample (a : Axes Half) (s : State) : State :=
  { s with mot.sample := a }

/-- OBSERVE once for each sample, in order. -/
def observeAll : List (Axes Half) → State → Host.Outcome State Fault Refusal
  | [], s => .next s
  | a :: as, s =>
    match exec .observe (withSample a s) with
    | .next t => observeAll as t
    | .fault r => .fault r
    | .refused r => .refused r

/-- Whether an OBSERVE in this state, with the operands it has, is classified and qualifies (41_motion.md R94, R95). -/
def rearms (p : Params) (s : State) : Bool :=
  s.mot.warm && qualifies p (slideSums s.mot) s.mot.sample

/-- Every OBSERVE of the sequence is classified, and none of them qualifies (41_motion.md R98, R99). -/
def quietRun (p : Params) : List (Axes Half) → State → Prop
  | [], _ => True
  | a :: as, s =>
    s.mot.warm = true ∧ rearms p (withSample a s) = false ∧
      ∀ t, exec .observe (withSample a s) = .next t → quietRun p as t

/-- The log holds exactly the entries `es`, in order (43_log.md R138). -/
def holdsEntries (p : Params) (s : State) (es : List (List Byte)) : Prop :=
  s.log.cursor.toNat = entryBytes * es.length ∧
    ∀ i (h : i < es.length), memRead p s (entryBytes * i) entryBytes = some es[i]

/-- The command a request issues, if it issues one (30_encoding.md R61, R65). -/
def commandOf : Request → Option Instr
  | .read _ => none
  | .write rn w =>
    if rn = numberOfReg .cmd then
      match decode w with
      | .ok i => some i
      | .error _ => none
    else none

/-- The event neither rewinds the cursor nor loses the retention domain: it is no ERASE, whole or cut off, and no COLD
reset (43_log.md R138). -/
def keepsLog : Event → Bool
  | .request r => decide (commandOf r ≠ some .erase)
  | .begun r _ => decide (commandOf r ≠ some .erase)
  | .reset .warm => true
  | .reset (.cold _) => false

/-- The entry an APPEND adds, when the step from `s` to `t` is an APPEND command run whole that returned OK (43_log.md R138). -/
def appendedAt (s t : State) : List (List Byte) :=
  match s.port.inbox with
  | .request r :: _ =>
    if commandOf r = some .append ∧ t.sys.rc = 0#4 then [logEntry Config.params (timerSample s) s.cod.frame] else []
  | .begun _ _ :: _ => []
  | .reset _ :: _ => []
  | [] => []

/-- The entries the APPEND commands that return OK in a run of `n` steps add, in order (43_log.md R138). -/
def appendedIn : Nat → State → List (List Byte)
  | 0, _ => []
  | n + 1, s =>
    match step s with
    | .next t => appendedAt s t ++ appendedIn n t
    | .fault _ => []
    | .refused _ => []

/-- `s` with the event `e` as the next one, and `rest` after it. -/
def pending (e : Event) (rest : List Event) (s : State) : State :=
  { s with port.inbox := e :: rest }

/-- `s` once its transaction has been answered `a`, with `rest` still to come. -/
def answeredWith (a : Answer) (rest : List Event) (s : State) : State :=
  { s with port := { inbox := rest, status := .answered a } }

/-- `t` is what one draw with the given range leaves of `s` (40_jitter.md R82): the three words advanced, on integers, the
result below in RES, RC = 0, exactly one timer sample taken, and everything else, CMD and every byte of flash among it,
as before. -/
def drawnFrom (range : Word) (s t : State) : Prop :=
  t.jit.seed.toNat = (s.jit.seed.toNat + (timerSample s).toNat) % 2 ^ 32 ∧
    t.jit.v1.toNat = Config.params.mwcA1 * (s.jit.v1.toNat % 65536) + s.jit.v1.toNat / 65536 ∧
    t.jit.v2.toNat = Config.params.mwcA2 * (s.jit.v2.toNat % 65536) + s.jit.v2.toNat / 65536 ∧
    t.jit.arg = s.jit.arg ∧
    t.sys = { cmd := s.sys.cmd, rc := 0#4, res := t.sys.res } ∧
    t.sys.res.toNat = ((t.jit.v1 ^^^ t.jit.v2) ^^^ t.jit.seed).toNat % range.toNat ∧
    t.mot = s.mot ∧ t.cod = s.cod ∧ t.log = s.log ∧ t.port = s.port ∧ t.env = (timerTaken s).env

/-- The volatile domain at its reset values (10_state.md R39). -/
def volatileAtReset (p : Params) (t : State) : Prop :=
  t.sys = { cmd := 0#32, rc := 0#4, res := 0#32 } ∧
    t.jit = { arg := 0#32, v1 := p.v1Init, v2 := p.v2Init, seed := p.seedInit } ∧
    t.mot.sample = ⟨0#16, 0#16, 0#16⟩ ∧
    t.mot.buf.length = p.depth ∧ (∀ b ∈ t.mot.buf, b = ⟨0#16, 0#16, 0#16⟩) ∧
    t.mot.sum = ⟨0#32, 0#32, 0#32⟩ ∧ t.mot.pos = 0#8 ∧ t.mot.warm = false ∧ t.mot.ticks = 0#8 ∧
    (∀ i : Fin 4, t.cod.uid[i] = 0#32) ∧ t.cod.tagId = 0#16 ∧ t.cod.idValid = false ∧
    t.cod.txLevel = 0#1 ∧ t.cod.txSeq = 0#16 ∧ t.cod.battery = 0#8 ∧
    t.cod.peerLast = 0#16 ∧ t.cod.peerLow = 0#16 ∧ t.cod.peerHigh = 0#16 ∧
    (∀ i : Fin 20, t.cod.frame[i] = 0x00#8) ∧ t.cod.fstate = .empty ∧ t.log.phase = .idle

end Sys2Proof.Machine
end

