-- ==== Sys2Proof/Certificates/Slice0/Obligations.lean ====
section
/-! DEFINITION. The statements for the provers. Equations between whole states, or between whole units of a state, are the
frames: what they do not name differently is unchanged, every byte of flash included. -/

open Sys2Proof Sys2Proof.Machine

/-! ## Encoding -/

/-- Decoding the encoding of a well-formed command gives it back (30_encoding.md R60 to R65). -/
def Obligations.DecodeEncodeAgree : Prop :=
  ∀ i : Instr, i.wellFormed = true → decode (encode i) = .ok i

/-- 30_encoding.md R65, the whole table: a word decodes to a command exactly when it is that command's word. -/
def Obligations.DecodesExactlyTheTable : Prop :=
  ∀ (w : Word) (i : Instr),
    decode w = .ok i ↔
      (i = .nop ∧ w = 0x00000000#32) ∨ (i = .setid ∧ w = 0x01000000#32) ∨ (i = .next ∧ w = 0x10000000#32) ∨
        (∃ imm : Word, i = .nexti imm ∧ imm.toNat ≤ 0xFFFFFF ∧ w = 0x11000000#32 + imm) ∨
        (i = .observe ∧ w = 0x20000000#32) ∨ (i = .encode ∧ w = 0x30000000#32) ∨
        (i = .encrypt ∧ w = 0x31000000#32) ∨ (i = .verify ∧ w = 0x32000000#32) ∨
        (i = .append ∧ w = 0x40000000#32) ∨ (i = .erase ∧ w = 0x41000000#32)

/-- Words written out from 30_encoding.md R65 (and R83's `nexti 100`) decode to the commands they stand for, one of each
unit. -/
def Obligations.KnownWordsDecode : Prop :=
  decode 0x01000000#32 = .ok .setid ∧ decode 0x11000064#32 = .ok (.nexti 100#32) ∧
    decode 0x20000000#32 = .ok .observe ∧ decode 0x32000000#32 = .ok .verify ∧ decode 0x40000000#32 = .ok .append ∧
    decode 0x20000001#32 = .error (.lowBitsSet 0x20#8 1#24) ∧ decode 0x02000000#32 = .error (.unassignedOpcode 0x02#8)

/-- The request and answer tuples of 20_memory.md R45 lose nothing. In the request tuple `we` is bit 40, `rn` bits 39:32 and
`wdata` bits 31:0, and for a read `wdata` is ignored: every tuple with `we = 0` is a read of its `rn` whatever `wdata` is. In
the answer tuple `err` is bit 32 and `rdata` bits 31:0. (The last clause, that the tuple the model writes for a read carries
0 in the ignored `wdata`, is the model's choice, log entry 21.) -/
def Obligations.PortTuplesRoundTrip : Prop :=
  (∀ r : Request, requestOfBits (requestBits r) = r) ∧ (∀ a : Answer, answerOfBits (answerBits a) = a) ∧
    (∀ (rn : Byte) (w : Word), requestOfBits (BitVec.ofNat 41 (rn.toNat * 2 ^ 32 + w.toNat)) = .read rn) ∧
    (∀ (rn : Byte) (w : Word),
      requestOfBits (BitVec.ofNat 41 (2 ^ 40 + rn.toNat * 2 ^ 32 + w.toNat)) = .write rn w) ∧
    (∀ rn w, (requestBits (.write rn w)).toNat = 2 ^ 40 + rn.toNat * 2 ^ 32 + w.toNat) ∧
    (∀ e w, (answerBits { err := e, rdata := w }).toNat = (if e then 2 ^ 32 else 0) + w.toNat) ∧
    ∀ rn, (requestBits (.read rn)).toNat = rn.toNat * 2 ^ 32

/-! ## The step -/

/-- 30_encoding.md R61: a write of `w` to CMD stores `w`, runs the command it decodes to, and answers `err = 0` whatever the
return code; a word that is no command returns ERR_ILLEGAL with no other state change. -/
def Obligations.StepRunsDecodedCommand : Prop :=
  ∀ (s : State) (rest : List Event) (w : Word), s.port.status ≠ .outstanding →
    (∀ i t, decode w = .ok i → exec i (setCmd w { s with port.inbox := rest }) = .next t →
      step (pending (.request (.write 0x00#8 w)) rest s) =
        .next { t with port.status := .answered { err := false, rdata := 0#32 } }) ∧
    (∀ e, decode w = .error e →
      step (pending (.request (.write 0x00#8 w)) rest s) =
        .next (answeredWith { err := false, rdata := 0#32 } rest
          { s with sys := { cmd := w, rc := 10#4, res := 0#32 } }))

/-- The model's choice (log entry 7): the word that `withFetchWord` places is what the very next step runs. -/
def Obligations.FetchWordIsRunNext : Prop :=
  ∀ (s : State) (w : Word) (i : Instr) (t : State), decode w = .ok i →
    exec i (setCmd w { s with port := { inbox := s.port.inbox, status := .quiet } }) = .next t →
    step (s.withFetchWord 32 w.toNat) = .next { t with port.status := .answered { err := false, rdata := 0#32 } }

/-- 30_encoding.md R66: every opcode other than the ten, and every format-Z opcode with `w[23:0] != 0`, returns ERR_ILLEGAL and
changes CMD, RC and RES and nothing else. -/
def Obligations.IllegalWordsOnlyReturn : Prop :=
  ∀ (s : State) (rest : List Event) (w : Word), s.port.status ≠ .outstanding →
    (w.toNat / 2 ^ 24 ∉ [0x00, 0x01, 0x10, 0x11, 0x20, 0x30, 0x31, 0x32, 0x40, 0x41] ∨
      (w.toNat / 2 ^ 24 ≠ 0x11 ∧ w.toNat % 2 ^ 24 ≠ 0)) →
    step (pending (.request (.write 0x00#8 w)) rest s) =
      .next (answeredWith { err := false, rdata := 0#32 } rest
        { s with sys := { cmd := w, rc := 10#4, res := 0#32 } })

/-- Every command has a defined result in every state (70_reset_and_hazards.md R217): none faults, none is refused, and each
leaves the host port as it was. -/
def Obligations.EveryCommandCompletes : Prop :=
  ∀ (i : Instr) (s : State), ∃ t, exec i s = .next t ∧ t.port = s.port

/-- A step never refuses, and stops only where the spec gives no move: a request while a transaction is in flight
(20_memory.md R45, 60_exceptions.md R190). The stop itself is the model's (log entry 6). -/
def Obligations.StepStopsOnlyOnSecondRequest : Prop :=
  ∀ (s : State) (e : Event) (rest : List Event),
    (∀ r, step (pending e rest s) ≠ .refused r) ∧
      ((∃ r, step (pending e rest s) = .fault r) ↔ s.port.status = .outstanding ∧ ∀ k, e ≠ .reset k)

/-- With nothing to come from outside nothing changes (60_exceptions.md R187, 70_reset_and_hazards.md R214). That a step with
no event answers the state it was given is how the model says so (log entry 6). -/
def Obligations.NothingChangesWithoutEvents : Prop :=
  ∀ s : State, s.port.inbox = [] → step s = .next s

/-! ## Registers -/

/-- What a read of each register answers, as an integer: zero-extended, or sign-extended for SX, SY, SZ (and the 32-bit
sums), and the transaction changes nothing but the port (20_memory.md R41). What F0 to F4 answer is in `FrameWindow`, and
STATUS in `StatusBits`. -/
def Obligations.ReadsAnswerWidenedRegisters : Prop :=
  ∀ (s : State) (rest : List Event), s.port.status ≠ .outstanding →
    (∀ rn r, regOfNumber rn = some r →
      step (pending (.request (.read rn)) rest s) =
        .next (answeredWith { err := false, rdata := readReg Config.params r s } rest s)) ∧
    readReg Config.params .cmd s = s.sys.cmd ∧ (readReg Config.params .rc s).toNat = s.sys.rc.toNat ∧ readReg Config.params .res s = s.sys.res ∧
    readReg Config.params .arg s = s.jit.arg ∧ (readReg Config.params .sx s).toInt = s.mot.sample.x.toInt ∧
    (readReg Config.params .sy s).toInt = s.mot.sample.y.toInt ∧ (readReg Config.params .sz s).toInt = s.mot.sample.z.toInt ∧
    (∀ i, readReg Config.params (.uid i) s = s.cod.uid[i]) ∧
    (readReg Config.params .tagid s).toNat = s.cod.tagId.toNat ∧ (readReg Config.params .txlevel s).toNat = s.cod.txLevel.toNat ∧
    (readReg Config.params .txseq s).toNat = s.cod.txSeq.toNat ∧ (readReg Config.params .battery s).toNat = s.cod.battery.toNat ∧
    (readReg Config.params .peerlast s).toNat = s.cod.peerLast.toNat ∧ (readReg Config.params .peerlow s).toNat = s.cod.peerLow.toNat ∧
    (readReg Config.params .peerhigh s).toNat = s.cod.peerHigh.toNat ∧ readReg Config.params .cursor s = s.log.cursor ∧
    (readReg Config.params .logcap s).toNat = Config.params.logCapacity.val ∧ (readReg Config.params .ticks s).toNat = s.mot.ticks.toNat ∧
    (readReg Config.params .pos s).toNat = s.mot.pos.toNat ∧ (readReg Config.params .sumx s).toInt = s.mot.sum.x.toInt ∧
    (readReg Config.params .sumy s).toInt = s.mot.sum.y.toInt ∧ (readReg Config.params .sumz s).toInt = s.mot.sum.z.toInt ∧
    readReg Config.params .v1 s = s.jit.v1 ∧ readReg Config.params .v2 s = s.jit.v2 ∧ readReg Config.params .seed s = s.jit.seed

/-- The table of 10_state.md R10, row by row: the number of each register; a number names the register it is the number of, and
the numbers of 20_memory.md R43, and no others, name none. -/
def Obligations.RegisterNumbersAreTheMap : Prop :=
  (numberOfReg .cmd = 0x00#8 ∧ numberOfReg .rc = 0x01#8 ∧ numberOfReg .res = 0x02#8 ∧ numberOfReg .status = 0x03#8 ∧
    numberOfReg .arg = 0x04#8 ∧ numberOfReg .sx = 0x05#8 ∧ numberOfReg .sy = 0x06#8 ∧ numberOfReg .sz = 0x07#8 ∧
    numberOfReg (.uid 0) = 0x08#8 ∧ numberOfReg (.uid 1) = 0x09#8 ∧ numberOfReg (.uid 2) = 0x0A#8 ∧
    numberOfReg (.uid 3) = 0x0B#8 ∧ numberOfReg .tagid = 0x0C#8 ∧ numberOfReg .txlevel = 0x0D#8 ∧
    numberOfReg .txseq = 0x0E#8 ∧ numberOfReg .battery = 0x0F#8 ∧ numberOfReg .peerlast = 0x10#8 ∧
    numberOfReg .peerlow = 0x11#8 ∧ numberOfReg .peerhigh = 0x12#8 ∧ numberOfReg (.f 0) = 0x14#8 ∧
    numberOfReg (.f 1) = 0x15#8 ∧ numberOfReg (.f 2) = 0x16#8 ∧ numberOfReg (.f 3) = 0x17#8 ∧
    numberOfReg (.f 4) = 0x18#8 ∧ numberOfReg .cursor = 0x1C#8 ∧ numberOfReg .logcap = 0x1D#8 ∧
    numberOfReg .ticks = 0x20#8 ∧ numberOfReg .pos = 0x21#8 ∧ numberOfReg .sumx = 0x22#8 ∧
    numberOfReg .sumy = 0x23#8 ∧ numberOfReg .sumz = 0x24#8 ∧ numberOfReg .v1 = 0x25#8 ∧ numberOfReg .v2 = 0x26#8 ∧
    numberOfReg .seed = 0x27#8) ∧
  (∀ (r : Reg) (rn : Byte), regOfNumber rn = some r ↔ rn = numberOfReg r) ∧
    ∀ rn : Byte, regOfNumber rn = none ↔
      rn.toNat = 0x13 ∨ (0x19 ≤ rn.toNat ∧ rn.toNat ≤ 0x1B) ∨ rn.toNat = 0x1E ∨ rn.toNat = 0x1F ∨ 0x28 ≤ rn.toNat

/-- 20_memory.md R43: a read or a write of an unimplemented register number answers `(err = 1, rdata = 0)` and changes no
state. -/
def Obligations.UnimplementedNumbersAnswerError : Prop :=
  ∀ (s : State) (rest : List Event) (rn : Byte) (w : Word), s.port.status ≠ .outstanding →
    (rn.toNat = 0x13 ∨ (0x19 ≤ rn.toNat ∧ rn.toNat ≤ 0x1B) ∨ rn.toNat = 0x1E ∨ rn.toNat = 0x1F ∨ 0x28 ≤ rn.toNat) →
    step (pending (.request (.read rn)) rest s) = .next (answeredWith { err := true, rdata := 0#32 } rest s) ∧
      step (pending (.request (.write rn w)) rest s) = .next (answeredWith { err := true, rdata := 0#32 } rest s)

/-- 20_memory.md R44: a write to a read-only register, or to UID0 to UID3 while IDVALID = 1, answers `(err = 1, rdata = 0)` and
changes no state. -/
def Obligations.RefusedWritesChangeNothing : Prop :=
  ∀ (s : State) (rest : List Event) (rn : Byte) (w : Word), s.port.status ≠ .outstanding →
    (rn.toNat ∈ [0x01, 0x02, 0x03, 0x0C, 0x1C, 0x1D, 0x20, 0x21, 0x22, 0x23, 0x24, 0x25, 0x26, 0x27] ∨
      (0x08 ≤ rn.toNat ∧ rn.toNat ≤ 0x0B ∧ s.cod.idValid = true)) →
    step (pending (.request (.write rn w)) rest s) = .next (answeredWith { err := true, rdata := 0#32 } rest s)

/-- A write to a writable register other than CMD and F0 to F4 stores the low bits of `wdata`, as many as the register has, and
changes nothing else (20_memory.md R42, 10_state.md R18 to R20, R22 to R26). -/
def Obligations.WritesStoreLowBits : Prop :=
  ∀ (s : State) (rest : List Event) (w : Word), s.port.status ≠ .outstanding →
    (∃ t, step (pending (.request (.write 0x04#8 w)) rest s) =
        .next (answeredWith { err := false, rdata := 0#32 } rest t) ∧ t = { s with jit.arg := w }) ∧
    (∃ v : Half, v.toNat = w.toNat % 2 ^ 16 ∧
      step (pending (.request (.write 0x05#8 w)) rest s) =
        .next (answeredWith { err := false, rdata := 0#32 } rest { s with mot.sample.x := v }) ∧
      step (pending (.request (.write 0x06#8 w)) rest s) =
        .next (answeredWith { err := false, rdata := 0#32 } rest { s with mot.sample.y := v }) ∧
      step (pending (.request (.write 0x07#8 w)) rest s) =
        .next (answeredWith { err := false, rdata := 0#32 } rest { s with mot.sample.z := v }) ∧
      step (pending (.request (.write 0x0E#8 w)) rest s) =
        .next (answeredWith { err := false, rdata := 0#32 } rest { s with cod.txSeq := v }) ∧
      step (pending (.request (.write 0x10#8 w)) rest s) =
        .next (answeredWith { err := false, rdata := 0#32 } rest { s with cod.peerLast := v }) ∧
      step (pending (.request (.write 0x11#8 w)) rest s) =
        .next (answeredWith { err := false, rdata := 0#32 } rest { s with cod.peerLow := v }) ∧
      step (pending (.request (.write 0x12#8 w)) rest s) =
        .next (answeredWith { err := false, rdata := 0#32 } rest { s with cod.peerHigh := v })) ∧
    (∃ v : BitVec 1, v.toNat = w.toNat % 2 ∧
      step (pending (.request (.write 0x0D#8 w)) rest s) =
        .next (answeredWith { err := false, rdata := 0#32 } rest { s with cod.txLevel := v })) ∧
    (∃ v : Byte, v.toNat = w.toNat % 2 ^ 8 ∧
      step (pending (.request (.write 0x0F#8 w)) rest s) =
        .next (answeredWith { err := false, rdata := 0#32 } rest { s with cod.battery := v })) ∧
    (∀ i : Fin 4, s.cod.idValid = false →
      step (pending (.request (.write (0x08#8 + BitVec.ofNat 8 i.val) w)) rest s) =
        .next (answeredWith { err := false, rdata := 0#32 } rest { s with cod.uid := s.cod.uid.set i.val w }))

/-- 10_state.md R27: F_i reads bytes 4i to 4i+3 of FRAME, byte 4i most significant, in every FSTATE; a write of F_i replaces those
four bytes, sets FSTATE to RAW and changes nothing else. -/
def Obligations.FrameWindow : Prop :=
  ∀ (s : State) (rest : List Event) (i : Fin 5), s.port.status ≠ .outstanding →
    (step (pending (.request (.read (0x14#8 + BitVec.ofNat 8 i.val))) rest s) =
      .next (answeredWith { err := false, rdata := readReg Config.params (.f i) s } rest s)) ∧
    (readReg Config.params (.f i) s).toNat =
      ((s.cod.frame[4 * i.val].toNat * 256 + s.cod.frame[4 * i.val + 1].toNat) * 256 +
        s.cod.frame[4 * i.val + 2].toNat) * 256 + s.cod.frame[4 * i.val + 3].toNat ∧
    ∀ w : Word, ∃ g : Frame,
      step (pending (.request (.write (0x14#8 + BitVec.ofNat 8 i.val) w)) rest s) =
        .next (answeredWith { err := false, rdata := 0#32 } rest
          { s with cod := { s.cod with frame := g, fstate := .raw } }) ∧
      ((g[4 * i.val].toNat * 256 + g[4 * i.val + 1].toNat) * 256 + g[4 * i.val + 2].toNat) * 256 +
        g[4 * i.val + 3].toNat = w.toNat ∧
      ∀ j : Fin 20, j.val / 4 ≠ i.val → g[j] = s.cod.frame[j]

/-- The pseudo-instruction `ldframe` with the five words of any frame loads that frame and leaves FSTATE = RAW, and touches nothing
else (30_encoding.md R68, 10_state.md R27, 42_codec.md R117). -/
def Obligations.LoadFrameLoadsFrame : Prop :=
  ∀ (s : State) (rest : List Event) (f : Frame), s.port.status ≠ .outstanding →
    Host.Core.run Sys2Proof.core 5
      { s with port.inbox :=
        (expandPseudo (.ldframe (frameWord 0 f) (frameWord 1 f) (frameWord 2 f) (frameWord 3 f)
          (frameWord 4 f))).flatMap stmtEvents ++ rest } =
      .next (answeredWith { err := false, rdata := 0#32 } rest
        { s with cod := { s.cod with frame := f, fstate := .raw } })

/-- 10_state.md R17: each bit of STATUS; the reserved bits read 0; after either reset with CURSOR = 0 and room for an entry it reads 0;
it is read-only. -/
def Obligations.StatusBits : Prop :=
  ∀ s : State,
    ((readReg Config.params .status s).getLsbD 0 = true ↔ 0 < s.mot.ticks.toNat) ∧
    (readReg Config.params .status s).getLsbD 1 = s.mot.warm ∧
    (readReg Config.params .status s).getLsbD 2 = s.cod.idValid ∧
    ((readReg Config.params .status s).toNat / 16 % 4 =
      match s.cod.fstate with
      | .empty => 0
      | .built => 1
      | .raw => 2
      | .verified => 3) ∧
    ((readReg Config.params .status s).getLsbD 8 = true ↔ s.log.cursor.toNat + entryBytes > Config.params.logCapacity.val) ∧
    (∀ n, n = 3 ∨ n = 6 ∨ n = 7 ∨ 9 ≤ n → (readReg Config.params .status s).getLsbD n = false) ∧
    (∀ k rest t, step (pending (.reset k) rest s) = .next t → t.log.cursor = 0#32 →
      entryBytes ≤ Config.params.logCapacity.val → readReg Config.params .status t = 0#32) ∧
    ∀ w rest, s.port.status ≠ .outstanding →
      step (pending (.request (.write 0x03#8 w)) rest s) = .next (answeredWith { err := true, rdata := 0#32 } rest s)

/-! ## System commands -/

/-- 44_system.md R150: NOP returns (OK, 0) and changes RC and RES and nothing else. -/
def Obligations.NopReturnsOk : Prop :=
  decode 0x00000000#32 = .ok .nop ∧ ∀ s : State, exec .nop s = .next { s with sys := { s.sys with rc := 0#4, res := 0#32 } }

/-- 44_system.md R151: SETID derives TAGID as the checksum of the sixteen UID bytes, UID0[31:24] first, and locks it; once an
identity is set it returns ERR_IDSET and TAGID, and changes nothing else. -/
def Obligations.SetidDerivesIdentity : Prop :=
  decode 0x01000000#32 = .ok .setid ∧ ∀ s : State,
    (s.cod.idValid = false → ∃ tag : Half,
      tag = Config.params.crc16
        ((List.range 16).map fun n => (s.cod.uid.toList.getD (n / 4) 0#32).extractLsb' (24 - 8 * (n % 4)) 8) ∧
      exec .setid s =
        .next { s with
          cod := { s.cod with tagId := tag, idValid := true }
          sys := { s.sys with rc := 0#4, res := tag.zeroExtend 32 } }) ∧
    (s.cod.idValid = true →
      exec .setid s = .next { s with sys := { s.sys with rc := 8#4, res := s.cod.tagId.zeroExtend 32 } })

/-- 44_system.md R152: once an identity is set, no step but a reset changes the UID registers, TAGID or IDVALID, so that a
SETID succeeds only where none is set and leaves one set; every reset clears them. -/
def Obligations.IdentityIsFixed : Prop :=
  (∀ s t : State, exec .setid s = .next t → t.sys.rc = 0#4 → s.cod.idValid = false ∧ t.cod.idValid = true) ∧
  ∀ (s t : State) (e : Event) (rest : List Event), step (pending e rest s) = .next t →
    (s.cod.idValid = true → (∀ k, e ≠ .reset k) →
      t.cod.idValid = true ∧ t.cod.tagId = s.cod.tagId ∧ t.cod.uid = s.cod.uid) ∧
    (∀ k, e = .reset k → t.cod.idValid = false ∧ t.cod.tagId = 0#16 ∧ ∀ i : Fin 4, t.cod.uid[i] = 0#32)

/-! ## Unit JIT -/

/-- 40_jitter.md R81: `mwc(a, v) = a * v[15:0] + v[31:16]`, which never exceeds 32 bits, so that no reduction is applied. -/
def Obligations.MwcNeverWraps : Prop :=
  ∀ (a : Nat) (v : Word), a ≤ 65535 → (mwc a v).toNat = a * (v.toNat % 65536) + v.toNat / 65536

/-- 40_jitter.md R82: NEXT. -/
def Obligations.NextDrawsWithArg : Prop :=
  decode 0x10000000#32 = .ok .next ∧ ∀ s : State,
    (s.jit.arg = 0#32 → exec .next s = .next { s with sys := { s.sys with rc := 5#4, res := 0#32 } }) ∧
    (s.jit.arg ≠ 0#32 → ∃ t, exec .next s = .next t ∧ drawnFrom s.jit.arg s t)

/-- 40_jitter.md R83: NEXTI, with the range in the command word, 0 to 0xFFFFFF (30_encoding.md R64); ARG is neither read nor
written. -/
def Obligations.NextiDrawsWithImmediate : Prop :=
  ∀ imm : Word, imm.toNat ≤ 0xFFFFFF → decode (0x11000000#32 + imm) = .ok (.nexti imm) ∧ ∀ s : State,
    (imm = 0#32 → exec (.nexti imm) s = .next { s with sys := { s.sys with rc := 5#4, res := 0#32 } }) ∧
    (imm ≠ 0#32 → ∃ t, exec (.nexti imm) s = .next t ∧ drawnFrom imm s t)

/-- Every successful NEXT or NEXTI returns a value in `[0, range)`, for every state and every timer draw (40_jitter.md R80). (An
ill-formed NEXTI, which no word decodes to, is taken in: what it does is the model's choice, log entry 10.) -/
def Obligations.JitterBelowRange : Prop :=
  ∀ s t : State,
    (exec .next s = .next t → t.sys.rc = 0#4 → t.sys.res.toNat < s.jit.arg.toNat) ∧
    ∀ imm, exec (.nexti imm) s = .next t → t.sys.rc = 0#4 → t.sys.res.toNat < imm.toNat

/-- Given the unit's words and the timer draw the result is a function: nothing else of the state has any part in it, and it has a part
in nothing else (40_jitter.md R84, R85, 70_reset_and_hazards.md R200). (An ill-formed NEXTI, which no word decodes to, is taken
in: what it does is the model's choice, log entry 10.) -/
def Obligations.JitterDependsOnWordsAndTimer : Prop :=
  ∀ (s s' t t' : State) (imm : Word), s.jit = s'.jit → timerSample s = timerSample s' →
    exec (.nexti imm) s = .next t → exec (.nexti imm) s' = .next t' →
    t.jit = t'.jit ∧ t.sys.rc = t'.sys.rc ∧ t.sys.res = t'.sys.res ∧
      t.mot = s.mot ∧ t.cod = s.cod ∧ t.log = s.log ∧ t'.mot = s'.mot ∧ t'.cod = s'.cod ∧ t'.log = s'.log

/-! ## Unit MOT -/

/-- 41_motion.md R91: OBSERVE, on integers. The premise is the invariant of the unit (`StepKeepsMotionInvariant`). -/
def Obligations.ObserveFollowsTheFilter : Prop :=
  decode 0x20000000#32 = .ok .observe ∧ ∀ s : State, MotionOk Config.params s.mot →
    ∃ (old : Axes Half) (t : State), s.mot.buf[s.mot.pos.toNat]? = some old ∧ exec .observe s = .next t ∧
      t.mot.buf = s.mot.buf.set s.mot.pos.toNat s.mot.sample ∧ t.mot.sample = s.mot.sample ∧
      t.mot.sum.x.toInt = s.mot.sum.x.toInt + s.mot.sample.x.toInt - old.x.toInt ∧
      t.mot.sum.y.toInt = s.mot.sum.y.toInt + s.mot.sample.y.toInt - old.y.toInt ∧
      t.mot.sum.z.toInt = s.mot.sum.z.toInt + s.mot.sample.z.toInt - old.z.toInt ∧
      t.mot.pos.toNat = (s.mot.pos.toNat + 1) % Config.params.depth ∧
      (s.mot.warm = false → (t.mot.warm = true ↔ t.mot.pos.toNat = 0) ∧ t.mot.ticks = s.mot.ticks) ∧
      (s.mot.warm = true → t.mot.warm = true ∧
        ((Config.params.threshold <
              (t.mot.sum.x.toInt.tdiv (Config.params.depth : Int) - s.mot.sample.x.toInt).natAbs ∨
            Config.params.threshold <
              (t.mot.sum.y.toInt.tdiv (Config.params.depth : Int) - s.mot.sample.y.toInt).natAbs ∨
            Config.params.threshold <
              (t.mot.sum.z.toInt.tdiv (Config.params.depth : Int) - s.mot.sample.z.toInt).natAbs) →
          t.mot.ticks.toNat = Config.params.maxTicks) ∧
        (¬ (Config.params.threshold <
              (t.mot.sum.x.toInt.tdiv (Config.params.depth : Int) - s.mot.sample.x.toInt).natAbs ∨
            Config.params.threshold <
              (t.mot.sum.y.toInt.tdiv (Config.params.depth : Int) - s.mot.sample.y.toInt).natAbs ∨
            Config.params.threshold <
              (t.mot.sum.z.toInt.tdiv (Config.params.depth : Int) - s.mot.sample.z.toInt).natAbs) →
          t.mot.ticks.toNat = s.mot.ticks.toNat - 1)) ∧
      t.sys = { cmd := s.sys.cmd, rc := 0#4, res := t.mot.ticks.zeroExtend 32 } ∧
      t.jit = s.jit ∧ t.cod = s.cod ∧ t.log = s.log ∧ t.port = s.port ∧ t.env = s.env

/-- 41_motion.md R94: from a unit that has not been filled, standing at slot 0, the first DEPTH OBSERVE commands leave TICKS
unchanged whatever the samples are, and exactly the DEPTH-th of them sets WARM. -/
def Obligations.WarmUpNeverClassifies : Prop :=
  ∀ (s : State) (samples : List (Axes Half)), s.mot.warm = false → s.mot.pos = 0#8 →
    samples.length ≤ Config.params.depth →
    ∃ t, observeAll samples s = .next t ∧ t.mot.ticks = s.mot.ticks ∧
      (t.mot.warm = true ↔ samples.length = Config.params.depth) ∧
      t.mot.pos.toNat = samples.length % Config.params.depth

/-- 41_motion.md R98: a classified OBSERVE that qualifies sets TICKS to MAX_TICKS whatever it held, and k classified OBSERVE
commands after it that do not qualify, k <= MAX_TICKS, leave MAX_TICKS - k, so that the tag is moving after each of them
but the MAX_TICKS-th. -/
def Obligations.DecayLaw : Prop :=
  ∀ (s t : State) (a : Axes Half) (samples : List (Axes Half)),
    rearms Config.params (withSample a s) = true → exec .observe (withSample a s) = .next t →
    quietRun Config.params samples t → samples.length ≤ Config.params.maxTicks →
    t.mot.ticks.toNat = Config.params.maxTicks ∧
    ∃ u, observeAll samples t = .next u ∧ u.mot.ticks.toNat = Config.params.maxTicks - samples.length ∧
      ((readReg Config.params .status u).getLsbD 0 = true ↔ samples.length < Config.params.maxTicks)

/-- The law of stillness that does hold (41_motion.md R99): after MAX_TICKS or more consecutive classified OBSERVE commands none of which
qualifies TICKS is 0; and a unit at TICKS = 0 stays there as long as no classified OBSERVE qualifies. -/
def Obligations.StillnessLaw : Prop :=
  ∀ (s : State) (samples : List (Axes Half)), quietRun Config.params samples s →
    (s.mot.ticks.toNat ≤ Config.params.maxTicks → Config.params.maxTicks ≤ samples.length →
      ∃ t, observeAll samples s = .next t ∧ t.mot.ticks = 0#8) ∧
    (s.mot.ticks = 0#8 → ∃ t, observeAll samples s = .next t ∧ t.mot.ticks = 0#8)

/-- 41_motion.md R101: no step but an OBSERVE command and a reset changes BUF, the sums, POS, WARM or TICKS. -/
def Obligations.MotionStateIsOwned : Prop :=
  ∀ (s t : State) (e : Event) (rest : List Event), step (pending e rest s) = .next t → (∀ k, e ≠ .reset k) →
    (∀ r, e = .request r → commandOf r ≠ some .observe) → (∀ r n, e = .begun r n → commandOf r ≠ some .observe) →
    t.mot.buf = s.mot.buf ∧ t.mot.sum = s.mot.sum ∧ t.mot.pos = s.mot.pos ∧ t.mot.warm = s.mot.warm ∧
      t.mot.ticks = s.mot.ticks

/-! ## Unit COD -/

/-- 42_codec.md R106: ENCODE, byte by byte. -/
def Obligations.EncodeBuildsFrame : Prop :=
  decode 0x30000000#32 = .ok .encode ∧ ∀ s : State,
    (s.cod.idValid = false → exec .encode s = .next { s with sys := { s.sys with rc := 7#4, res := 0#32 } }) ∧
    (s.cod.idValid = true → ∃ (f : Frame) (c : Half),
      f.toList.take 18 =
        [Config.params.protoBeacontracker, s.cod.tagId.extractLsb' 8 8, s.cod.tagId.extractLsb' 0 8,
          if 0 < s.mot.ticks.toNat then Config.params.flagMoving else 0x00#8,
          (timerSample s).extractLsb' 24 8, (timerSample s).extractLsb' 16 8, (timerSample s).extractLsb' 8 8,
          (timerSample s).extractLsb' 0 8, s.cod.txLevel.zeroExtend 8,
          s.cod.txSeq.extractLsb' 8 8, s.cod.txSeq.extractLsb' 0 8,
          s.cod.peerLast.extractLsb' 8 8, s.cod.peerLast.extractLsb' 0 8,
          s.cod.peerLow.extractLsb' 8 8, s.cod.peerLow.extractLsb' 0 8,
          s.cod.peerHigh.extractLsb' 8 8, s.cod.peerHigh.extractLsb' 0 8, s.cod.battery] ∧
      c = Config.params.crc16 (f.toList.take 18) ∧ f[18].toNat * 256 + f[19].toNat = c.toNat ∧
      exec .encode s =
        .next { timerTaken s with
          cod := { s.cod with frame := f, fstate := .built }
          sys := { s.sys with rc := 0#4, res := c.zeroExtend 32 } })

/-- 42_codec.md R109: ENCRYPT replaces the frame by its encipherment with blockCount 5 and KEY, and is refused with nothing else
changed when FSTATE is not BUILT. -/
def Obligations.EncryptEnciphersBuiltFrame : Prop :=
  decode 0x31000000#32 = .ok .encrypt ∧ ∀ s : State,
    (s.cod.fstate ≠ .built → exec .encrypt s = .next { s with sys := { s.sys with rc := 6#4, res := 0#32 } }) ∧
    (s.cod.fstate = .built →
      exec .encrypt s =
        .next { s with
          cod := { s.cod with frame := Config.params.cipher 5 Config.params.key s.cod.frame, fstate := .raw }
          sys := { s.sys with rc := 0#4, res := 0#32 } })

/-- 42_codec.md R111, R113: VERIFY, where `f` is the decrypted frame. The four cases exclude each other. -/
def Obligations.VerifyDecidesAndAccounts : Prop :=
  decode 0x32000000#32 = .ok .verify ∧ ∀ (s : State) (f : Frame), f = (Config.params.cipher 5 Config.params.key).symm s.cod.frame →
    (s.cod.fstate ≠ .raw → exec .verify s = .next { s with sys := { s.sys with rc := 6#4, res := 0#32 } }) ∧
    (s.cod.fstate = .raw →
      (Config.params.crc16 (f.toList.take 18)).toNat ≠ f[18].toNat * 256 + f[19].toNat →
      exec .verify s =
        .next { s with
          cod := { s.cod with frame := f, fstate := .empty }
          sys := { s.sys with rc := 1#4, res := 1#32 } }) ∧
    (s.cod.fstate = .raw →
      (Config.params.crc16 (f.toList.take 18)).toNat = f[18].toNat * 256 + f[19].toNat →
      f[0] ≠ Config.params.protoBeacontracker →
      exec .verify s =
        .next { s with
          cod := { s.cod with frame := f, fstate := .empty }
          sys := { s.sys with rc := 1#4, res := 2#32 } }) ∧
    (s.cod.fstate = .raw →
      (Config.params.crc16 (f.toList.take 18)).toNat = f[18].toNat * 256 + f[19].toNat →
      f[0] = Config.params.protoBeacontracker →
      ∃ t, exec .verify s = .next t ∧
        t.cod =
          { s.cod with
            frame := f, fstate := .verified, peerLast := t.cod.peerLast, peerLow := t.cod.peerLow,
            peerHigh := t.cod.peerHigh } ∧
        t.cod.peerLast.toNat = f[1].toNat * 256 + f[2].toNat ∧
        t.cod.peerLow.toNat = (if f[8] = 0x00#8 then (s.cod.peerLow.toNat + 1) % 65536 else s.cod.peerLow.toNat) ∧
        t.cod.peerHigh.toNat =
          (if f[8] = 0x01#8 then (s.cod.peerHigh.toNat + 1) % 65536 else s.cod.peerHigh.toNat) ∧
        t.sys = { cmd := s.sys.cmd, rc := 0#4, res := t.sys.res } ∧
        t.sys.res.toNat = f[1].toNat * 256 + f[2].toNat ∧
        t.jit = s.jit ∧ t.mot = s.mot ∧ t.log = s.log ∧ t.port = s.port ∧ t.env = s.env)

/-- 42_codec.md R114: an ENCODE that returned OK, ENCRYPT, and VERIFY of the enciphered bytes, on this block or on any other with the
same key, checksum and protocol tag (`u`), give the frame back byte for byte. -/
def Obligations.EncodeEncryptVerifyRoundTrip : Prop :=
  ∀ s : State, s.cod.idValid = true →
    ∃ a b, exec .encode s = .next a ∧ a.sys.rc = 0#4 ∧ exec .encrypt a = .next b ∧ b.sys.rc = 0#4 ∧
      b.cod.fstate = .raw ∧
      ∀ u : State, u.cod.fstate = .raw → u.cod.frame = b.cod.frame →
        ∃ v, exec .verify u = .next v ∧ v.sys.rc = 0#4 ∧ v.cod.frame = a.cod.frame ∧ v.cod.fstate = .verified ∧
          v.sys.res = s.cod.tagId.zeroExtend 32

/-! ## Unit LOG -/

/-- 43_log.md R130, the tests that refuse, in their order (R131, R132): ERR_SEQ changes nothing, ERR_CURSOR and STORAGE_FULL consume the
frame; no timer sample, no flash write, no cursor write. -/
def Obligations.AppendRefusals : Prop :=
  decode 0x40000000#32 = .ok .append ∧ ∀ s : State,
    (s.cod.fstate ≠ .verified → exec .append s = .next { s with sys := { s.sys with rc := 6#4, res := 0#32 } }) ∧
    (s.cod.fstate = .verified → s.log.cursor.toNat % 28 ≠ 0 →
      exec .append s =
        .next { s with
          cod := { s.cod with fstate := .empty }
          sys := { s.sys with rc := 9#4, res := s.log.cursor } }) ∧
    (s.cod.fstate = .verified → s.log.cursor.toNat % 28 = 0 → s.log.cursor.toNat + 28 > Config.params.logCapacity.val →
      exec .append s =
        .next { s with
          cod := { s.cod with fstate := .empty }
          sys := { s.sys with rc := 2#4, res := s.log.cursor } })

/-- 43_log.md R130, the path that reaches the flash write (R133 to R135): with `c` the cursor and `E` the entry, the driver's `ok` puts `E`
at the offsets c to c+27 and advances the cursor; its `fail` leaves those bytes unchanged or at any value and the cursor
alone. Every byte outside c to c+27 reads as before. -/
def Obligations.AppendWritesOneEntry : Prop :=
  ∀ (s : State) (body E : List Byte),
    s.cod.fstate = .verified → s.log.cursor.toNat % 28 = 0 → s.log.cursor.toNat + 28 ≤ Config.params.logCapacity.val →
    body = [Config.params.entryTypeBeacon, 0x1C#8, (timerSample s).extractLsb' 24 8, (timerSample s).extractLsb' 16 8,
        (timerSample s).extractLsb' 8 8, (timerSample s).extractLsb' 0 8] ++ s.cod.frame.toList →
    E = body ++ [(Config.params.crc16 body).extractLsb' 8 8, (Config.params.crc16 body).extractLsb' 0 8] →
    ∃ t, exec .append s = .next t ∧
      t.jit = s.jit ∧ t.mot = s.mot ∧ t.cod = { s.cod with fstate := .empty } ∧ t.port = s.port ∧
      t.log.phase = .idle ∧
      t.env.timer = (timerTaken s).env.timer ∧ t.env.result = (resultTaken s).env.result ∧
      (∀ a, a < s.log.cursor.toNat ∨ s.log.cursor.toNat + 28 ≤ a → t.log.flash.read a = s.log.flash.read a) ∧
      (flashResult s = .ok →
        t.log.flash.readBytes s.log.cursor.toNat 28 = some E ∧ t.log.cursor.toNat = s.log.cursor.toNat + 28 ∧
        t.sys = { cmd := s.sys.cmd, rc := 0#4, res := t.log.cursor }) ∧
      (flashResult s = .fail →
        t.log.cursor = s.log.cursor ∧ t.sys = { cmd := s.sys.cmd, rc := 3#4, res := s.log.cursor } ∧
        ∀ i, i < 28 →
          t.log.flash.read (s.log.cursor.toNat + i) = s.log.flash.read (s.log.cursor.toNat + i) ∨
            ∃ b, t.log.flash.read (s.log.cursor.toNat + i) = some b)

/-- 43_log.md R139: ERASE sets CURSOR to 0 whatever the driver reports; on `ok` every byte of the region is ERASED_BYTE, on `fail` every
byte is unchanged or any value (20_memory.md R48). -/
def Obligations.EraseRewindsAndErases : Prop :=
  decode 0x41000000#32 = .ok .erase ∧ ∀ s : State, ∃ t, exec .erase s = .next t ∧
    t.log.cursor = 0#32 ∧ t.log.phase = .idle ∧
    t.jit = s.jit ∧ t.mot = s.mot ∧ t.cod = s.cod ∧ t.port = s.port ∧
    t.env.timer = s.env.timer ∧ t.env.result = (resultTaken s).env.result ∧
    (flashResult s = .ok →
      t.sys = { cmd := s.sys.cmd, rc := 0#4, res := 0#32 } ∧
      ∀ a, a < Config.params.logCapacity.val → t.log.flash.read a = some Config.params.erasedByte) ∧
    (flashResult s = .fail →
      t.sys = { cmd := s.sys.cmd, rc := 4#4, res := 0#32 } ∧
      ∀ a, t.log.flash.read a = s.log.flash.read a ∨
        (a < Config.params.logCapacity.val ∧ ∃ b, t.log.flash.read a = some b))

/-- A command ends in the last of the states it passes through, so that the states in which a reset can fall belong to the same
command that `exec` runs whole (00_scope.md R9, 43_log.md R136, R141). -/
def Obligations.CommandEndsInItsLastState : Prop :=
  ∀ (i : Instr) (s : State), exec i s = .next ((commandStates Config.params i s).getLastD s)

/-- 43_log.md R136: a WARM reset inside an APPEND that passes its tests. `m` is the state the reset finds. `n` counts the sub-steps done: up
to 2, before `MemWrite`; 3, in it; 4, after it and before or during the cursor write; 5 and more, after that. (The rule's
rows "before" and "during" the cursor write have one PHASE, and the model one case; that and the count of sub-steps are
the model's choice, log entry 12.) -/
def Obligations.ResetInsideAppend : Prop :=
  ∀ (s : State) (n : Nat) (rest : List Event), s.port.status ≠ .outstanding → s.log.phase = .idle →
    s.cod.fstate = .verified → s.log.cursor.toNat % 28 = 0 → s.log.cursor.toNat + 28 ≤ Config.params.logCapacity.val →
    ∃ m t, step (pending (.begun (.write 0x00#8 0x40000000#32) n) (.reset .warm :: rest) s) = .next m ∧
      step m = .next t ∧
      volatileAtReset Config.params t ∧ t.port = { inbox := rest, status := .quiet } ∧
      (∀ a, a < s.log.cursor.toNat ∨ s.log.cursor.toNat + 28 ≤ a → t.log.flash.read a = s.log.flash.read a) ∧
      (n ≤ 2 → m.log.phase = .idle ∧ t.log.cursor = s.log.cursor ∧ t.log.flash = s.log.flash) ∧
      (n = 3 → m.log.phase = .aWrite (logEntry Config.params (timerSample s) s.cod.frame) ∧
        t.log.cursor = s.log.cursor) ∧
      (flashResult s = .ok → n = 4 →
        m.log.phase = .aCommit ∧
        (t.log.cursor = s.log.cursor ∨ t.log.cursor.toNat = s.log.cursor.toNat + 28) ∧
        t.log.flash.readBytes s.log.cursor.toNat 28 =
          some (logEntry Config.params (timerSample s) s.cod.frame)) ∧
      (flashResult s = .ok → 5 ≤ n →
        m.log.phase = .idle ∧ t.log.cursor.toNat = s.log.cursor.toNat + 28 ∧
        t.log.flash.readBytes s.log.cursor.toNat 28 =
          some (logEntry Config.params (timerSample s) s.cod.frame)) ∧
      (flashResult s = .fail → 4 ≤ n → m.log.phase = .idle ∧ t.log.cursor = s.log.cursor)

/-- 43_log.md R141: a WARM reset inside an ERASE. `m` is the state the reset finds. `n` counts the sub-steps done: up to 2, before or during
the cursor write (2 is E_COMMIT); 3, before or during `FlashErase`; 4 and more, after it. (The count of sub-steps is the
model's choice, log entry 12.) -/
def Obligations.ResetInsideErase : Prop :=
  ∀ (s : State) (n : Nat) (rest : List Event), s.port.status ≠ .outstanding → s.log.phase = .idle →
    ∃ m t u, step (pending (.begun (.write 0x00#8 0x41000000#32) n) (.reset .warm :: rest) s) = .next m ∧
      step m = .next t ∧ exec .erase s = .next u ∧
      volatileAtReset Config.params t ∧ t.port = { inbox := rest, status := .quiet } ∧
      (n < 2 → t.log.cursor = s.log.cursor ∧ t.log.flash = s.log.flash) ∧
      (n = 2 → m.log.phase = .eCommit ∧ (t.log.cursor = s.log.cursor ∨ t.log.cursor = 0#32) ∧
        t.log.flash = s.log.flash) ∧
      (n = 3 → m.log.phase = .eErase ∧ t.log.cursor = 0#32 ∧
        ∀ a, t.log.flash.read a = s.log.flash.read a ∨
          (a < Config.params.logCapacity.val ∧ ∃ b, t.log.flash.read a = some b)) ∧
      (4 ≤ n → m.log.phase = .idle ∧ t.log.cursor = 0#32 ∧ t.log.flash = u.log.flash)

/-- 20_memory.md R53: a reset inside any transaction but APPEND and ERASE leaves the block exactly as the same reset without the
transaction would have; a WARM one leaves the retention domain and the flash region as they were. -/
def Obligations.ResetInsideOtherLeavesNoTrace : Prop :=
  ∀ (s : State) (r : Request) (n : Nat) (k : ResetKind) (rest : List Event), s.port.status ≠ .outstanding →
    s.log.phase = .idle → commandOf r ≠ some .append → commandOf r ≠ some .erase →
    ∃ m t u, step (pending (.begun r n) (.reset k :: rest) s) = .next m ∧ step m = .next t ∧
      step (pending (.reset k) rest s) = .next u ∧
      t.sys = u.sys ∧ t.jit = u.jit ∧ t.mot = u.mot ∧ t.cod = u.cod ∧ t.log = u.log ∧ t.port = u.port ∧
      (k = .warm → t.log.cursor = s.log.cursor ∧ t.log.flash = s.log.flash)

/-- No step but an ERASE (whole, cut off, or being cut off) and a COLD reset moves the cursor back, and none advances it by more than one entry
(10_state.md R39, I-CUR3; 43_log.md R137). -/
def Obligations.CursorAdvancesByWholeEntries : Prop :=
  ∀ (s t : State) (e : Event) (rest : List Event), Inv Config.params s → step (pending e rest s) = .next t →
    keepsLog e = true → s.log.phase ≠ .eCommit →
    t.log.cursor = s.log.cursor ∨ t.log.cursor.toNat = s.log.cursor.toNat + entryBytes

/-- 43_log.md R138 over runs: from a log that holds the entries `es`, any sequence of events without ERASE and COLD reset, WARM resets inside and
outside APPEND among them, leaves a log that holds `es` followed by whole new entries, at most one for each step: nothing
below the cursor is modified, deleted, counted twice or incomplete. -/
def Obligations.LogOnlyGrowsByWholeEntries : Prop :=
  ∀ (n : Nat) (s t : State) (es : List (List Byte)), Inv Config.params s → s.port.status ≠ .outstanding →
    holdsEntries Config.params s es → (∀ e ∈ s.port.inbox, keepsLog e = true) → Host.Core.run Sys2Proof.core n s = .next t →
    ∃ new : List (List Byte), new.length ≤ n ∧ (∀ e ∈ new, entryOk Config.params e) ∧ holdsEntries Config.params t (es ++ new)

/-- An APPEND that returns OK adds exactly its own entry at the end of the log (43_log.md R130, R138). -/
def Obligations.SuccessfulAppendAddsItsEntry : Prop :=
  ∀ (s : State) (es : List (List Byte)), holdsEntries Config.params s es → s.cod.fstate = .verified →
    s.log.cursor.toNat + entryBytes ≤ Config.params.logCapacity.val → flashResult s = .ok →
    ∃ t, exec .append s = .next t ∧ t.sys.rc = 0#4 ∧
      holdsEntries Config.params t (es ++ [logEntry Config.params (timerSample s) s.cod.frame])

/-- 43_log.md R138: from a log that holds the entries `es` (none, where CURSOR is 0), after any run of any commands but ERASE, and of resets
outside APPEND but no COLD one, the log holds `es` followed by exactly the entries of the APPEND commands that returned OK, in
order; and no command but ERASE writes a byte below CURSOR. -/
def Obligations.LogHoldsWhatWasAppended : Prop :=
  (∀ (n : Nat) (s t : State) (es : List (List Byte)), Inv Config.params s → s.port.status ≠ .outstanding →
    holdsEntries Config.params s es →
    (∀ e ∈ s.port.inbox, keepsLog e = true ∧ ∀ r k, e = .begun r k → commandOf r ≠ some .append) →
    Host.Core.run Sys2Proof.core n s = .next t → holdsEntries Config.params t (es ++ appendedIn n s)) ∧
  ∀ (i : Instr) (s t : State), i ≠ .erase → exec i s = .next t →
    ∀ a, a < s.log.cursor.toNat → t.log.flash.read a = s.log.flash.read a

/-! ## Return codes -/

/-- 60_exceptions.md R167: which command can return which code, and an undefined word only ERR_ILLEGAL. -/
def Obligations.ReturnCodesOfEachCommand : Prop :=
  (∀ (s : State) (w : Word) (e : Illegal), decode w = .error e →
    ∃ t, executeWord exec w s = .next t ∧ t.sys.rc = 10#4) ∧
  ∀ (s t : State) (i : Instr), exec i s = .next t →
    t.sys.rc.toNat ∈
      (match i with
        | .nop => [0]
        | .setid => [0, 8]
        | .next => [0, 5]
        | .nexti _ => [0, 5]
        | .observe => [0]
        | .encode => [0, 7]
        | .encrypt => [0, 6]
        | .verify => [0, 6, 1]
        | .append => [0, 6, 9, 2, 3]
        | .erase => [0, 4])

/-- 60_exceptions.md R171, for the codes whose row of R166 lists no state change (ERR_RANGE, ERR_SEQ, ERR_NOID, ERR_IDSET): the state is
exactly as before the command except RC, RES and CMD. (ERR_ILLEGAL is in `IllegalWordsOnlyReturn`.) -/
def Obligations.RefusalsAreWithoutTrace : Prop :=
  ∀ (s t : State) (i : Instr), exec i s = .next t → t.sys.rc.toNat ∈ [5, 6, 7, 8] →
    t = { s with sys := { s.sys with rc := t.sys.rc, res := t.sys.res } }

/-! ## Reset -/

/-- 70_reset_and_hazards.md R195: a WARM reset, in any state, puts every element of the volatile domain at its reset value; CURSOR and the flash
region keep their values but where the reset falls inside APPEND or ERASE. -/
def Obligations.WarmResetKeepsTheLog : Prop :=
  ∀ (s : State) (rest : List Event), ∃ t, step (pending (.reset .warm) rest s) = .next t ∧
    volatileAtReset Config.params t ∧ t.port = { inbox := rest, status := .quiet } ∧
    (s.log.phase = .idle → t.log.cursor = s.log.cursor ∧ t.log.flash = s.log.flash)

/-- 70_reset_and_hazards.md R196: a COLD reset does what a WARM one does, and sets CURSOR to 0; the flash contents are what the environment
gives, whatever that is, and the laws of R137 and R138 hold from the start. (That an offset past those contents lists no
value is how the model writes "unspecified", log entries 5 and 8.) -/
def Obligations.ColdResetClearsTheCursor : Prop :=
  ∀ (s : State) (contents : List Byte) (rest : List Event),
    ∃ t, step (pending (.reset (.cold contents)) rest s) = .next t ∧
      volatileAtReset Config.params t ∧ t.port = { inbox := rest, status := .quiet } ∧
      t.log.cursor = 0#32 ∧
      (∀ a, t.log.flash.read a = if a < Config.params.logCapacity.val then contents[a]? else none) ∧
      LogOk Config.params t.log ∧ holdsEntries Config.params t []

/-- 70_reset_and_hazards.md R199: what the first reads after a reset answer. -/
def Obligations.FirstReadsAfterReset : Prop :=
  ∀ (s t : State) (k : ResetKind) (rest : List Event), step (pending (.reset k) rest s) = .next t →
    readReg Config.params .rc t = 0#32 ∧ readReg Config.params .res t = 0#32 ∧ readReg Config.params .cmd t = 0#32 ∧
    readReg Config.params .v1 t = Config.params.v1Init ∧ readReg Config.params .v2 t = Config.params.v2Init ∧
    readReg Config.params .seed t = Config.params.seedInit ∧
    readReg Config.params .status t =
      (if t.log.cursor.toNat + entryBytes ≤ Config.params.logCapacity.val then 0x00000000#32 else 0x00000100#32) ∧
    (k = .warm → s.log.phase = .idle → readReg Config.params .cursor t = readReg Config.params .cursor s) ∧
    (∀ contents, k = .cold contents → readReg Config.params .cursor t = 0#32)

/-! ## Invariants -/

/-- The state after reset meets the whole invariant (10_state.md R39). That the flash region lists nothing and that the port's own fields
are empty are the model's choices (log entries 5, 6). -/
def Obligations.ResetMeetsTheInvariant : Prop :=
  Inv Config.params State.reset ∧ volatileAtReset Config.params State.reset ∧ State.reset.log.cursor = 0#32 ∧
    State.reset.log.flash = [] ∧ State.reset.port = { inbox := [], status := .quiet }

/-- I-SUM, I-POS, I-TICKS and I-WARM (10_state.md R39) are kept by OBSERVE in EVERY configuration the table of 00_scope.md R3 admits. -/
def Obligations.ObserveKeepsMotionInEveryConfiguration : Prop :=
  ∀ (p : Params) (m : Mot), MotionOk p m → MotionOk p (observeMot p m)

/-- I-SUM, I-POS, I-TICKS and I-WARM (10_state.md R39) hold after every step from a state in which they hold. -/
def Obligations.StepKeepsMotionInvariant : Prop :=
  ∀ s t : State, MotionOk Config.params s.mot → step s = .next t → MotionOk Config.params t.mot

/-- FSTATE keeps telling the truth about FRAME (10_state.md R28), and TAGID about the UID (R21): after every step a frame tagged BUILT or VERIFIED
is a plaintext frame with a correct checksum and the expected tag, and TAGID is 0 or the checksum of the UID. -/
def Obligations.StepKeepsFrameAndIdentity : Prop :=
  ∀ s t : State, FrameTagOk Config.params s.cod → IdentityOk Config.params s.cod → step s = .next t →
    FrameTagOk Config.params t.cod ∧ IdentityOk Config.params t.cod

/-- The crash-safety law (43_log.md R137): every step, whole commands, resets anywhere, failed and torn flash operations alike, leaves a state that
meets the invariant, in which CURSOR is a multiple of ENTRY_BYTES inside the region and every slot below it holds a whole
log entry of a frame that passed its checks. -/
def Obligations.StepKeepsCrashSafety : Prop :=
  ∀ s t : State, Inv Config.params s → step s = .next t → Inv Config.params t

/-! ## The configuration record -/

/-- 00_scope.md R3: the record is an argument of the machine, and the machine of the fixed names is the one with `Config.params`,
which has the defaults of the table. (That it has them, and a log region of 84 bytes or more, is the model's choice, log
entries 1 and 2.) -/
def Obligations.MachineRunsTheDefaultConfiguration : Prop :=
  (∀ i s, exec i s = execIn Config.params i s) ∧ (∀ s, step s = stepIn Config.params s) ∧
    State.reset = resetIn Config.params ∧
    Config.params.depth = 10 ∧ Config.params.threshold = 3 ∧ Config.params.maxTicks = 20 ∧
    Config.params.mwcA1 = 36969 ∧ Config.params.mwcA2 = 30963 ∧ Config.params.v1Init = 0x52F7D319#32 ∧
    Config.params.v2Init = 0x6E28014A#32 ∧ Config.params.seedInit = 0x00000000#32 ∧
    Config.params.protoBeacontracker = 24#8 ∧ Config.params.flagMoving = 0x02#8 ∧
    Config.params.entryTypeBeacon = 0x01#8 ∧ Config.params.erasedByte = 0xFF#8 ∧
    Config.params.crc16 [] = 0xFFFF#16 ∧ Config.params.crc16 [0x00#8] = 0xE1F0#16 ∧
    84 ≤ Config.params.logCapacity.val

/-- In every configuration of 00_scope.md R3 the state after reset, and the state after a reset from any state that meets the
invariant, meets the invariant and has the reset values of 10_state.md R39. -/
def Obligations.ResetsInEveryConfiguration : Prop :=
  ∀ p : Params,
    (Inv p (resetIn p) ∧ volatileAtReset p (resetIn p) ∧ (resetIn p).log.cursor = 0#32) ∧
    ∀ (s : State) (k : ResetKind) (rest : List Event), Inv p s →
      ∃ t, stepIn p (pending (.reset k) rest s) = .next t ∧ Inv p t ∧ volatileAtReset p t ∧
        t.port = { inbox := rest, status := .quiet }

/-- 43_log.md R132 and R130 in every configuration, so for every LOG_CAPACITY from 0 up: the storage-full test is strict, an entry
that ends exactly at LOG_CAPACITY fits, and an APPEND that fits and is reported `ok` puts its entry at the cursor. -/
def Obligations.AppendFillsTheRegionInEveryConfiguration : Prop :=
  ∀ (p : Params) (s : State), s.cod.fstate = .verified → s.log.cursor.toNat % 28 = 0 →
    (p.logCapacity.val < s.log.cursor.toNat + 28 →
      execIn p .append s =
        .next { s with
          cod := { s.cod with fstate := .empty }
          sys := { s.sys with rc := 2#4, res := s.log.cursor } }) ∧
    (s.log.cursor.toNat + 28 ≤ p.logCapacity.val → flashResult s = .ok →
      ∃ t, execIn p .append s = .next t ∧ t.sys = { cmd := s.sys.cmd, rc := 0#4, res := t.log.cursor } ∧
        t.log.cursor.toNat = s.log.cursor.toNat + 28 ∧
        memRead p t s.log.cursor.toNat 28 = some (logEntry p (timerSample s) s.cod.frame) ∧
        (∀ a, a < s.log.cursor.toNat ∨ s.log.cursor.toNat + 28 ≤ a → t.log.flash.read a = s.log.flash.read a) ∧
        t.cod = { s.cod with fstate := .empty } ∧ t.jit = s.jit ∧ t.mot = s.mot ∧ t.port = s.port)

/-- In every configuration of 00_scope.md R3 (DEPTH, THRESHOLD, MAX_TICKS, the multipliers and tags, KEY, CRC16, ENC and DEC,
LOG_CAPACITY) every step keeps the invariant of the block: the running sums, the frame tag, the identity, and the
crash-safety law of the log (10_state.md R39, 43_log.md R137). -/
def Obligations.StepKeepsTheInvariantInEveryConfiguration : Prop :=
  ∀ (p : Params) (s t : State), Inv p s → stepIn p s = .next t → Inv p t
end

