-- ==== Sys2Proof/Laws/Bytes.lean ====
section
/-! SUPPORT. Byte order and packing as integers (00_scope.md R5, R6). -/

namespace Sys2Proof.Machine

/-- Two bytes as one half, most significant first. -/
theorem fromBe16_toNat (hi lo : Byte) : (fromBe16 hi lo).toNat = hi.toNat * 256 + lo.toNat := by
  have := hi.isLt
  have := lo.isLt
  simp only [fromBe16, BitVec.toNat_append]
  rw [← Nat.shiftLeft_add_eq_or_of_lt (by omega)]
  simp [Nat.shiftLeft_eq]

/-- Four bytes as one word, most significant first. -/
theorem packWord_toNat (a b c d : Byte) :
    (packWord a b c d).toNat = ((a.toNat * 256 + b.toNat) * 256 + c.toNat) * 256 + d.toNat := by
  have := a.isLt
  have := b.isLt
  have := c.isLt
  have := d.isLt
  simp only [packWord, BitVec.toNat_append]
  rw [← Nat.shiftLeft_add_eq_or_of_lt (by omega), ← Nat.shiftLeft_add_eq_or_of_lt (by omega),
    ← Nat.shiftLeft_add_eq_or_of_lt (by omega)]
  simp only [Nat.shiftLeft_eq, Nat.reducePow]

/-- The two bytes of a half give it back. -/
theorem half_bytes (v : Half) : (v.extractLsb' 8 8).toNat * 256 + (v.extractLsb' 0 8).toNat = v.toNat := by
  have := v.isLt
  simp [BitVec.extractLsb'_toNat, Nat.shiftRight_eq_div_pow]
  omega

/-- The four bytes of a word give it back. -/
theorem word_bytes (v : Word) :
    (((v.extractLsb' 24 8).toNat * 256 + (v.extractLsb' 16 8).toNat) * 256 + (v.extractLsb' 8 8).toNat) * 256 +
      (v.extractLsb' 0 8).toNat = v.toNat := by
  have := v.isLt
  simp [BitVec.extractLsb'_toNat, Nat.shiftRight_eq_div_pow]
  omega

/-- Reading the two bytes of a half back (00_scope.md R5). -/
@[simp] theorem fromBe16_bytes (v : Half) : fromBe16 (v.extractLsb' 8 8) (v.extractLsb' 0 8) = v := by
  apply BitVec.eq_of_toNat_eq
  rw [fromBe16_toNat, half_bytes]

/-- The first eighteen bytes of the frame ENCODE builds. -/
theorem builtFrame_take (p : Params) (t : Word) (s : State) :
    (builtFrame p t s).toList.take 18 = frameBody p t s := by
  simp [builtFrame, frameBody, be16, be32]

/-- The last two bytes of the frame ENCODE builds hold its checksum (42_codec.md R107). -/
theorem embeddedCrc_builtFrame (p : Params) (t : Word) (s : State) :
    embeddedCrc (builtFrame p t s) = frameCrc p t s :=
  fromBe16_bytes (frameCrc p t s)

/-- The checksum recomputed over the frame ENCODE builds (42_codec.md R107). -/
theorem computedCrc_builtFrame (p : Params) (t : Word) (s : State) :
    computedCrc p (builtFrame p t s) = frameCrc p t s := by
  rw [computedCrc, builtFrame_take]
  rfl

end Sys2Proof.Machine
end

