-- ==== Sys2Proof/Laws/Memory.lean ====
section
/-! SUPPORT. The laws of the flash region: reading after writing, and that every operation keeps the canonical form. -/

namespace Sys2Proof.Machine

theorem Memory.read_write_same (a : Nat) (b : Byte) (m : Memory) : (Memory.write a b m).read a = some b := by
  induction m with
  | nil => simp [Memory.write, Memory.read]
  | cons c m ih =>
    obtain ⟨x, y⟩ := c
    simp only [Memory.write]
    split
    · simp [Memory.read]
    · split
      · simp [Memory.read]
      · rename_i h
        simp [Memory.read, h, ih]

theorem Memory.read_write_other {a x : Nat} (h : x ≠ a) (b : Byte) (m : Memory) :
    (Memory.write a b m).read x = m.read x := by
  induction m with
  | nil => simp [Memory.write, Memory.read, h]
  | cons c m ih =>
    obtain ⟨k, y⟩ := c
    simp only [Memory.write]
    split
    · simp [Memory.read, h]
    · split
      · rename_i hk
        subst hk
        simp [Memory.read, h]
      · simp only [Memory.read, ih]

/-- Every offset a write lists is the one written or one that was listed. -/
theorem Memory.mem_write {a : Nat} {b : Byte} {m : Memory} {c : Host.Cell} (h : c ∈ Memory.write a b m) :
    c = (a, b) ∨ c ∈ m := by
  induction m with
  | nil => simpa [Memory.write] using h
  | cons d m ih =>
    obtain ⟨x, y⟩ := d
    simp only [Memory.write] at h
    split at h
    · simpa using h
    · split at h
      · rcases List.mem_cons.1 h with h | h
        · exact .inl h
        · exact .inr (List.mem_cons_of_mem _ h)
      · rcases List.mem_cons.1 h with h | h
        · exact .inr (by simp [h])
        · exact (ih h).imp id (List.mem_cons_of_mem _)

theorem Memory.wf_write (a : Nat) (b : Byte) {m : Memory} (h : m.wf) : (Memory.write a b m).wf := by
  induction m with
  | nil => simp [Memory.write, Memory.wf]
  | cons d m ih =>
    obtain ⟨x, y⟩ := d
    obtain ⟨hx, hm⟩ := List.pairwise_cons.1 h
    simp only [Memory.write]
    split
    · rename_i hlt
      refine List.pairwise_cons.2 ⟨fun c hc => ?_, h⟩
      rcases List.mem_cons.1 hc with rfl | hc
      · exact hlt
      · exact lt_trans hlt (hx c hc)
    · split
      · rename_i heq
        subst heq
        exact List.pairwise_cons.2 ⟨hx, hm⟩
      · refine List.pairwise_cons.2 ⟨fun c hc => ?_, ih hm⟩
        rcases Memory.mem_write hc with rfl | hc
        · show x < a
          omega
        · exact hx c hc

theorem Memory.wf_writeBytes (bs : List Byte) (a : Nat) {m : Memory} (h : m.wf) : (m.writeBytes a bs).wf := by
  induction bs generalizing a m with
  | nil => exact h
  | cons b bs ih => exact ih (a + 1) (Memory.wf_write a b h)

theorem Memory.read_writeBytes_outside (bs : List Byte) {a x : Nat} (m : Memory) (h : x < a ∨ a + bs.length ≤ x) :
    (m.writeBytes a bs).read x = m.read x := by
  induction bs generalizing a m with
  | nil => rfl
  | cons b bs ih =>
    simp only [List.length_cons] at h
    rw [Memory.writeBytes, ih _ (by omega), Memory.read_write_other (by omega)]

theorem Memory.read_writeBytes_inside (bs : List Byte) (a : Nat) (m : Memory) (i : Nat) (h : i < bs.length) :
    (m.writeBytes a bs).read (a + i) = some bs[i] := by
  induction bs generalizing a m i with
  | nil => simp at h
  | cons b bs ih =>
    cases i with
    | zero =>
      rw [Memory.writeBytes, Memory.read_writeBytes_outside _ _ (by omega)]
      exact Memory.read_write_same a b m
    | succ i =>
      have := ih (a + 1) (Memory.write a b m) i (by simpa using h)
      rw [Memory.writeBytes, show a + (i + 1) = a + 1 + i by omega, this]
      rfl

theorem Memory.mem_writeBytes {bs : List Byte} {a : Nat} {m : Memory} {c : Host.Cell} (h : c ∈ m.writeBytes a bs) :
    (a ≤ c.1 ∧ c.1 < a + bs.length) ∨ c ∈ m := by
  induction bs generalizing a m with
  | nil => exact .inr h
  | cons b bs ih =>
    simp only [List.length_cons]
    rcases ih h with h | h
    · exact .inl (by omega)
    · rcases Memory.mem_write h with rfl | h
      · exact .inl (by simp)
      · exact .inr h

theorem Memory.mem_ofBytes {bs : List Byte} {a : Nat} {c : Host.Cell} (h : c ∈ Memory.ofBytes a bs) :
    a ≤ c.1 ∧ c.1 < a + bs.length := by
  induction bs generalizing a with
  | nil => simp [Memory.ofBytes] at h
  | cons b bs ih =>
    rcases List.mem_cons.1 h with rfl | h
    · simp
    · have := ih h
      simp only [List.length_cons]
      omega

theorem Memory.wf_ofBytes (bs : List Byte) (a : Nat) : (Memory.ofBytes a bs).wf := by
  induction bs generalizing a with
  | nil => exact List.Pairwise.nil
  | cons b bs ih => exact List.pairwise_cons.2 ⟨fun c hc => (Memory.mem_ofBytes hc).1, ih (a + 1)⟩

theorem Memory.read_ofBytes (bs : List Byte) (a i : Nat) : (Memory.ofBytes a bs).read (a + i) = bs[i]? := by
  induction bs generalizing a i with
  | nil => rfl
  | cons b bs ih =>
    cases i with
    | zero => simp [Memory.ofBytes, Memory.read]
    | succ i =>
      have := ih (a + 1) i
      rw [show a + (i + 1) = a + 1 + i by omega]
      simp only [Memory.ofBytes, Memory.read]
      rw [if_neg (by omega), this]
      rfl

/-- Reading a run of bytes depends on those bytes alone. -/
theorem Memory.readBytes_congr {m m' : Memory} (n : Nat) {a : Nat} (h : ∀ i < n, m.read (a + i) = m'.read (a + i)) :
    m.readBytes a n = m'.readBytes a n := by
  induction n generalizing a with
  | zero => rfl
  | succ n ih =>
    have h0 := h 0 (by omega)
    have hs := ih (a := a + 1) (fun i hi => by
      have := h (i + 1) (by omega)
      rwa [show a + (i + 1) = a + 1 + i by omega] at this)
    simp only [Nat.add_zero] at h0
    rw [Memory.readBytes, Memory.readBytes, h0, hs]

theorem Memory.readBytes_of_read {m : Memory} (bs : List Byte) {a : Nat}
    (h : ∀ i (hi : i < bs.length), m.read (a + i) = some bs[i]) : m.readBytes a bs.length = some bs := by
  induction bs generalizing a with
  | nil => rfl
  | cons b bs ih =>
    have h0 := h 0 (by simp)
    have hs := ih (a := a + 1) (fun i hi => by
      have := h (i + 1) (by simpa using hi)
      rwa [show a + (i + 1) = a + 1 + i by omega] at this)
    simp only [Nat.add_zero, List.getElem_cons_zero] at h0
    simp [Memory.readBytes, h0, hs]

theorem Memory.readBytes_writeBytes (bs : List Byte) (a : Nat) (m : Memory) :
    (m.writeBytes a bs).readBytes a bs.length = some bs :=
  Memory.readBytes_of_read bs (fun i hi => Memory.read_writeBytes_inside bs a m i hi)

theorem tearBytes_wf (new : List Byte) (a : Nat) {m : Memory} (q : Draws TornByte) (h : m.wf) :
    (tearBytes m a new q).1.wf := by
  induction new generalizing a m q with
  | nil => exact h
  | cons b bs ih =>
    simp only [tearBytes]
    split
    · exact ih _ _ h
    · exact ih _ _ (Memory.wf_write a b h)
    · exact ih _ _ (Memory.wf_write a _ h)

theorem tearBytes_read_outside (new : List Byte) {a x : Nat} (m : Memory) (q : Draws TornByte)
    (h : x < a ∨ a + new.length ≤ x) : (tearBytes m a new q).1.read x = m.read x := by
  induction new generalizing a m q with
  | nil => rfl
  | cons b bs ih =>
    simp only [List.length_cons] at h
    simp only [tearBytes]
    split
    · exact ih _ _ (by omega)
    · rw [ih _ _ (by omega), Memory.read_write_other (by omega)]
    · rw [ih _ _ (by omega), Memory.read_write_other (by omega)]

theorem tearBytes_mem {new : List Byte} {a : Nat} {m : Memory} {q : Draws TornByte} {c : Host.Cell}
    (h : c ∈ (tearBytes m a new q).1) : (a ≤ c.1 ∧ c.1 < a + new.length) ∨ c ∈ m := by
  induction new generalizing a m q with
  | nil => exact .inr h
  | cons b bs ih =>
    simp only [List.length_cons]
    simp only [tearBytes] at h
    split at h
    · exact (ih h).imp (fun h => by omega) id
    all_goals
      rcases ih h with h | h
      · exact .inl (by omega)
      · rcases Memory.mem_write h with rfl | h
        · exact .inl (by simp)
        · exact .inr h

/-- Each byte of a torn run is unchanged, or holds some byte (20_memory.md R47). -/
theorem tearBytes_read_inside (new : List Byte) (a : Nat) (m : Memory) (q : Draws TornByte) (i : Nat)
    (hi : i < new.length) :
    (tearBytes m a new q).1.read (a + i) = m.read (a + i) ∨ ∃ b, (tearBytes m a new q).1.read (a + i) = some b := by
  induction new generalizing a m q i with
  | nil => simp at hi
  | cons b bs ih =>
    simp only [tearBytes]
    cases i with
    | zero =>
      split
      · exact .inl (tearBytes_read_outside _ _ _ (by omega))
      · exact .inr ⟨b, by rw [tearBytes_read_outside _ _ _ (by omega)]; exact Memory.read_write_same a b m⟩
      · rename_i x _
        exact .inr ⟨x, by rw [tearBytes_read_outside _ _ _ (by omega)]; exact Memory.read_write_same a x m⟩
    | succ i =>
      have hlt : i < bs.length := by simpa using hi
      rw [show a + (i + 1) = a + 1 + i by omega]
      split
      · exact ih _ _ _ _ hlt
      · have := ih (a + 1) (Memory.write a b m) (draw Config.freeTornByte q).2 i hlt
        rwa [Memory.read_write_other (by omega) b m] at this
      · rename_i x _
        have := ih (a + 1) (Memory.write a x m) (draw Config.freeTornByte q).2 i hlt
        rwa [Memory.read_write_other (by omega) x m] at this

theorem memWrite_wf (addr : Nat) (v : List Byte) {s : State} (h : s.log.flash.wf) : (memWrite addr v s).log.flash.wf := by
  unfold memWrite
  split
  · exact Memory.wf_writeBytes v addr h
  · exact tearBytes_wf v addr _ h

theorem flashErase_wf (p : Params) {s : State} (h : s.log.flash.wf) : (flashErase p s).log.flash.wf := by
  unfold flashErase
  split
  · exact Memory.wf_ofBytes _ 0
  · exact tearBytes_wf _ 0 _ h

/-- The flash region of the state after reset has the canonical form. -/
theorem reset_flash_wf : State.reset.log.flash.wf :=
  List.Pairwise.nil

end Sys2Proof.Machine
end

