-- ==== Sys2Proof/Laws/Motion.lean ====
section
/-! SUPPORT. The arithmetic of unit MOT on integers (41_motion.md R91 to R95). -/

namespace Sys2Proof.Machine

/-- When a sample qualifies (41_motion.md R95). -/
theorem qualifies_iff (p : Params) (sum : Axes Word) (a : Axes Half) :
    qualifies p sum a = true ↔
      p.threshold < deviation p sum.x a.x ∨ p.threshold < deviation p sum.y a.y ∨ p.threshold < deviation p sum.z a.z := by
  simp only [qualifies, Bool.or_eq_true, decide_eq_true_eq, or_assoc]

/-- TICKS after a sample that does not qualify: one less, down to 0 (41_motion.md R95). -/
theorem nextTicks_false (p : Params) (k : Byte) : (nextTicks p false k).toNat = k.toNat - 1 := by
  have := k.isLt
  simp only [nextTicks]
  by_cases h : 0 < k.toNat
  · simp [h, BitVec.toNat_sub]
    omega
  · simp [h]
    omega

/-- TICKS after a sample that qualifies (41_motion.md R95). -/
theorem nextTicks_true (p : Params) (k : Byte) : (nextTicks p true k).toNat = p.maxTicks := by
  have := p.maxTicks_range
  simp [nextTicks]
  omega

/-- POS after step 2, as an integer (41_motion.md R93). -/
theorem nextPos_toNat (p : Params) (m : Mot) : (nextPos p m).toNat = (m.pos.toNat + 1) % p.depth := by
  have := p.depth_range
  have := Nat.mod_lt (m.pos.toNat + 1) (show 0 < p.depth by omega)
  simp [nextPos]
  omega

/-- Replacing one slot of the buffer changes an axis's total by the difference (41_motion.md R92). -/
theorem axisTotal_set (axis : Axes Half → Half) (buf : List (Axes Half)) (n : Nat) (a : Axes Half) (h : n < buf.length) :
    axisTotal axis (buf.set n a) = axisTotal axis buf + (axis a).toInt - (axis buf[n]).toInt := by
  unfold axisTotal
  induction buf generalizing n with
  | nil => simp at h
  | cons b bs ih =>
    cases n with
    | zero =>
      simp
      ring
    | succ m =>
      simp only [List.length_cons, Nat.add_lt_add_iff_right] at h
      have := ih m h
      simp only [List.set_cons_succ, List.map_cons, List.sum_cons, List.getElem_cons_succ] at this ⊢
      rw [this]
      ring

/-- An axis's total never leaves the range of so many 16-bit samples (10_state.md R32). -/
theorem axisTotal_bounds (axis : Axes Half → Half) (buf : List (Axes Half)) :
    -(32768 * (buf.length : Int)) ≤ axisTotal axis buf ∧ axisTotal axis buf ≤ 32767 * buf.length := by
  unfold axisTotal
  induction buf with
  | nil => simp
  | cons b bs ih =>
    have h1 := (axis b).toInt_lt
    have h2 := (axis b).le_toInt
    simp at *
    constructor <;> linarith [ih.1, ih.2]

/-- Where the sum is the buffer's total, sliding one sample in neither wraps nor loses it (41_motion.md R92). -/
theorem slideSum_toInt {axis : Axes Half → Half} {buf : List (Axes Half)} {n : Nat} {a : Axes Half} {sum : Word}
    (h : n < buf.length) (hd : buf.length ≤ 256) (hs : sum.toInt = axisTotal axis buf) :
    (slideSum sum (axis a) (axis buf[n])).toInt = axisTotal axis (buf.set n a) ∧
      (slideSum sum (axis a) (axis buf[n])).toInt = sum.toInt + (axis a).toInt - (axis buf[n]).toInt := by
  have hb := axisTotal_bounds axis (buf.set n a)
  rw [axisTotal_set axis buf n a h] at hb ⊢
  simp at hb
  unfold slideSum
  have : (buf.length : Int) ≤ 256 := by exact_mod_cast hd
  rw [BitVec.toInt_ofInt, hs, Int.bmod_eq_of_le]
  · simp
  · simp
    omega
  · simp
    omega

end Sys2Proof.Machine
end

