-- ==== Sys2Proof/Laws/State.lean ====
section
/-! SUPPORT. One lemma per field per named update of the state, each true by `rfl` and a simp lemma, so that no later proof
unfolds a record update. -/

namespace Sys2Proof.Machine

@[simp] theorem ret_jit (rc : RetCode) (res : Word) (s : State) : (ret rc res s).jit = s.jit := rfl
@[simp] theorem ret_mot (rc : RetCode) (res : Word) (s : State) : (ret rc res s).mot = s.mot := rfl
@[simp] theorem ret_cod (rc : RetCode) (res : Word) (s : State) : (ret rc res s).cod = s.cod := rfl
@[simp] theorem ret_log (rc : RetCode) (res : Word) (s : State) : (ret rc res s).log = s.log := rfl
@[simp] theorem ret_port (rc : RetCode) (res : Word) (s : State) : (ret rc res s).port = s.port := rfl
@[simp] theorem ret_env (rc : RetCode) (res : Word) (s : State) : (ret rc res s).env = s.env := rfl
@[simp] theorem ret_sys_cmd (rc : RetCode) (res : Word) (s : State) : (ret rc res s).sys.cmd = s.sys.cmd := rfl
@[simp] theorem ret_sys_rc (rc : RetCode) (res : Word) (s : State) : (ret rc res s).sys.rc = rc.number := rfl
@[simp] theorem ret_sys_res (rc : RetCode) (res : Word) (s : State) : (ret rc res s).sys.res = res := rfl

@[simp] theorem setCmd_jit (w : Word) (s : State) : (setCmd w s).jit = s.jit := rfl
@[simp] theorem setCmd_mot (w : Word) (s : State) : (setCmd w s).mot = s.mot := rfl
@[simp] theorem setCmd_cod (w : Word) (s : State) : (setCmd w s).cod = s.cod := rfl
@[simp] theorem setCmd_log (w : Word) (s : State) : (setCmd w s).log = s.log := rfl
@[simp] theorem setCmd_port (w : Word) (s : State) : (setCmd w s).port = s.port := rfl
@[simp] theorem setCmd_env (w : Word) (s : State) : (setCmd w s).env = s.env := rfl
@[simp] theorem setCmd_sys_cmd (w : Word) (s : State) : (setCmd w s).sys.cmd = w := rfl
@[simp] theorem setCmd_sys_rc (w : Word) (s : State) : (setCmd w s).sys.rc = s.sys.rc := rfl
@[simp] theorem setCmd_sys_res (w : Word) (s : State) : (setCmd w s).sys.res = s.sys.res := rfl

@[simp] theorem setPhase_sys (ph : Phase) (s : State) : (setPhase ph s).sys = s.sys := rfl
@[simp] theorem setPhase_jit (ph : Phase) (s : State) : (setPhase ph s).jit = s.jit := rfl
@[simp] theorem setPhase_mot (ph : Phase) (s : State) : (setPhase ph s).mot = s.mot := rfl
@[simp] theorem setPhase_cod (ph : Phase) (s : State) : (setPhase ph s).cod = s.cod := rfl
@[simp] theorem setPhase_port (ph : Phase) (s : State) : (setPhase ph s).port = s.port := rfl
@[simp] theorem setPhase_env (ph : Phase) (s : State) : (setPhase ph s).env = s.env := rfl
@[simp] theorem setPhase_log_cursor (ph : Phase) (s : State) : (setPhase ph s).log.cursor = s.log.cursor := rfl
@[simp] theorem setPhase_log_phase (ph : Phase) (s : State) : (setPhase ph s).log.phase = ph := rfl
@[simp] theorem setPhase_log_flash (ph : Phase) (s : State) : (setPhase ph s).log.flash = s.log.flash := rfl

@[simp] theorem setFState_sys (t : FState) (s : State) : (setFState t s).sys = s.sys := rfl
@[simp] theorem setFState_jit (t : FState) (s : State) : (setFState t s).jit = s.jit := rfl
@[simp] theorem setFState_mot (t : FState) (s : State) : (setFState t s).mot = s.mot := rfl
@[simp] theorem setFState_log (t : FState) (s : State) : (setFState t s).log = s.log := rfl
@[simp] theorem setFState_port (t : FState) (s : State) : (setFState t s).port = s.port := rfl
@[simp] theorem setFState_env (t : FState) (s : State) : (setFState t s).env = s.env := rfl
@[simp] theorem setFState_cod_uid (t : FState) (s : State) : (setFState t s).cod.uid = s.cod.uid := rfl
@[simp] theorem setFState_cod_tagId (t : FState) (s : State) : (setFState t s).cod.tagId = s.cod.tagId := rfl
@[simp] theorem setFState_cod_idValid (t : FState) (s : State) : (setFState t s).cod.idValid = s.cod.idValid := rfl
@[simp] theorem setFState_cod_txLevel (t : FState) (s : State) : (setFState t s).cod.txLevel = s.cod.txLevel := rfl
@[simp] theorem setFState_cod_txSeq (t : FState) (s : State) : (setFState t s).cod.txSeq = s.cod.txSeq := rfl
@[simp] theorem setFState_cod_battery (t : FState) (s : State) : (setFState t s).cod.battery = s.cod.battery := rfl
@[simp] theorem setFState_cod_peerLast (t : FState) (s : State) : (setFState t s).cod.peerLast = s.cod.peerLast := rfl
@[simp] theorem setFState_cod_peerLow (t : FState) (s : State) : (setFState t s).cod.peerLow = s.cod.peerLow := rfl
@[simp] theorem setFState_cod_peerHigh (t : FState) (s : State) : (setFState t s).cod.peerHigh = s.cod.peerHigh := rfl
@[simp] theorem setFState_cod_frame (t : FState) (s : State) : (setFState t s).cod.frame = s.cod.frame := rfl
@[simp] theorem setFState_cod_fstate (t : FState) (s : State) : (setFState t s).cod.fstate = t := rfl

@[simp] theorem timerTaken_sys (s : State) : (timerTaken s).sys = s.sys := rfl
@[simp] theorem timerTaken_jit (s : State) : (timerTaken s).jit = s.jit := rfl
@[simp] theorem timerTaken_mot (s : State) : (timerTaken s).mot = s.mot := rfl
@[simp] theorem timerTaken_cod (s : State) : (timerTaken s).cod = s.cod := rfl
@[simp] theorem timerTaken_log (s : State) : (timerTaken s).log = s.log := rfl
@[simp] theorem timerTaken_port (s : State) : (timerTaken s).port = s.port := rfl
@[simp] theorem timerTaken_env_result (s : State) : (timerTaken s).env.result = s.env.result := rfl
@[simp] theorem timerTaken_env_torn (s : State) : (timerTaken s).env.torn = s.env.torn := rfl
@[simp] theorem timerTaken_env_commit (s : State) : (timerTaken s).env.commit = s.env.commit := rfl
@[simp] theorem timerTaken_env_timer (s : State) : (timerTaken s).env.timer = (draw Config.freeTimer s.env.timer).2 := rfl

@[simp] theorem resultTaken_sys (s : State) : (resultTaken s).sys = s.sys := rfl
@[simp] theorem resultTaken_jit (s : State) : (resultTaken s).jit = s.jit := rfl
@[simp] theorem resultTaken_mot (s : State) : (resultTaken s).mot = s.mot := rfl
@[simp] theorem resultTaken_cod (s : State) : (resultTaken s).cod = s.cod := rfl
@[simp] theorem resultTaken_log (s : State) : (resultTaken s).log = s.log := rfl
@[simp] theorem resultTaken_port (s : State) : (resultTaken s).port = s.port := rfl
@[simp] theorem resultTaken_env_timer (s : State) : (resultTaken s).env.timer = s.env.timer := rfl
@[simp] theorem resultTaken_env_torn (s : State) : (resultTaken s).env.torn = s.env.torn := rfl
@[simp] theorem resultTaken_env_commit (s : State) : (resultTaken s).env.commit = s.env.commit := rfl
@[simp] theorem resultTaken_env_result (s : State) : (resultTaken s).env.result = (draw Config.freeFlashResult s.env.result).2 := rfl

@[simp] theorem giveAnswer_sys (a : Answer) (s : State) : (giveAnswer a s).sys = s.sys := rfl
@[simp] theorem giveAnswer_jit (a : Answer) (s : State) : (giveAnswer a s).jit = s.jit := rfl
@[simp] theorem giveAnswer_mot (a : Answer) (s : State) : (giveAnswer a s).mot = s.mot := rfl
@[simp] theorem giveAnswer_cod (a : Answer) (s : State) : (giveAnswer a s).cod = s.cod := rfl
@[simp] theorem giveAnswer_log (a : Answer) (s : State) : (giveAnswer a s).log = s.log := rfl
@[simp] theorem giveAnswer_env (a : Answer) (s : State) : (giveAnswer a s).env = s.env := rfl
@[simp] theorem giveAnswer_port_inbox (a : Answer) (s : State) : (giveAnswer a s).port.inbox = s.port.inbox := rfl
@[simp] theorem giveAnswer_port_status (a : Answer) (s : State) : (giveAnswer a s).port.status = .answered a := rfl

@[simp] theorem leaveOutstanding_sys (s : State) : (leaveOutstanding s).sys = s.sys := rfl
@[simp] theorem leaveOutstanding_jit (s : State) : (leaveOutstanding s).jit = s.jit := rfl
@[simp] theorem leaveOutstanding_mot (s : State) : (leaveOutstanding s).mot = s.mot := rfl
@[simp] theorem leaveOutstanding_cod (s : State) : (leaveOutstanding s).cod = s.cod := rfl
@[simp] theorem leaveOutstanding_log (s : State) : (leaveOutstanding s).log = s.log := rfl
@[simp] theorem leaveOutstanding_env (s : State) : (leaveOutstanding s).env = s.env := rfl
@[simp] theorem leaveOutstanding_port_inbox (s : State) : (leaveOutstanding s).port.inbox = s.port.inbox := rfl
@[simp] theorem leaveOutstanding_port_status (s : State) : (leaveOutstanding s).port.status = .outstanding := rfl

@[simp] theorem appendCommit_sys (s : State) : (appendCommit s).sys = s.sys := rfl
@[simp] theorem appendCommit_jit (s : State) : (appendCommit s).jit = s.jit := rfl
@[simp] theorem appendCommit_mot (s : State) : (appendCommit s).mot = s.mot := rfl
@[simp] theorem appendCommit_cod (s : State) : (appendCommit s).cod = s.cod := rfl
@[simp] theorem appendCommit_port (s : State) : (appendCommit s).port = s.port := rfl
@[simp] theorem appendCommit_env (s : State) : (appendCommit s).env = s.env := rfl
@[simp] theorem appendCommit_log_cursor (s : State) : (appendCommit s).log.cursor = nextCursor s := rfl
@[simp] theorem appendCommit_log_phase (s : State) : (appendCommit s).log.phase = .idle := rfl
@[simp] theorem appendCommit_log_flash (s : State) : (appendCommit s).log.flash = s.log.flash := rfl

@[simp] theorem eraseRewind_sys (s : State) : (eraseRewind s).sys = s.sys := rfl
@[simp] theorem eraseRewind_jit (s : State) : (eraseRewind s).jit = s.jit := rfl
@[simp] theorem eraseRewind_mot (s : State) : (eraseRewind s).mot = s.mot := rfl
@[simp] theorem eraseRewind_cod (s : State) : (eraseRewind s).cod = s.cod := rfl
@[simp] theorem eraseRewind_port (s : State) : (eraseRewind s).port = s.port := rfl
@[simp] theorem eraseRewind_env (s : State) : (eraseRewind s).env = s.env := rfl
@[simp] theorem eraseRewind_log_cursor (s : State) : (eraseRewind s).log.cursor = 0#32 := rfl
@[simp] theorem eraseRewind_log_phase (s : State) : (eraseRewind s).log.phase = .eErase := rfl
@[simp] theorem eraseRewind_log_flash (s : State) : (eraseRewind s).log.flash = s.log.flash := rfl

@[simp] theorem tearFlash_sys (a : Nat) (new : List Byte) (s : State) : (tearFlash a new s).sys = s.sys := rfl
@[simp] theorem tearFlash_jit (a : Nat) (new : List Byte) (s : State) : (tearFlash a new s).jit = s.jit := rfl
@[simp] theorem tearFlash_mot (a : Nat) (new : List Byte) (s : State) : (tearFlash a new s).mot = s.mot := rfl
@[simp] theorem tearFlash_cod (a : Nat) (new : List Byte) (s : State) : (tearFlash a new s).cod = s.cod := rfl
@[simp] theorem tearFlash_port (a : Nat) (new : List Byte) (s : State) : (tearFlash a new s).port = s.port := rfl

@[simp] theorem tearFlash_cursor (a : Nat) (new : List Byte) (s : State) : (tearFlash a new s).log.cursor = s.log.cursor := rfl
@[simp] theorem tearFlash_phase (a : Nat) (new : List Byte) (s : State) : (tearFlash a new s).log.phase = s.log.phase := rfl
@[simp] theorem tearFlash_flash (a : Nat) (new : List Byte) (s : State) :
    (tearFlash a new s).log.flash = (tearBytes s.log.flash a new s.env.torn).1 := rfl
@[simp] theorem tearFlash_timer (a : Nat) (new : List Byte) (s : State) : (tearFlash a new s).env.timer = s.env.timer := rfl
@[simp] theorem tearFlash_result (a : Nat) (new : List Byte) (s : State) : (tearFlash a new s).env.result = s.env.result := rfl
@[simp] theorem tearFlash_commit (a : Nat) (new : List Byte) (s : State) : (tearFlash a new s).env.commit = s.env.commit := rfl

end Sys2Proof.Machine
end

