-- ==== Sys2Proof/Laws/Ops.lean ====
section
/-! SUPPORT. One lemma per shared operation that says once everything it can do. -/

namespace Sys2Proof.Machine

/-- The cipher laws of 00_scope.md R8. -/
@[simp] theorem decFrame_encFrame (p : Params) (f : Frame) : decFrame p (encFrame p f) = f :=
  (p.cipher frameBlocks p.key).symm_apply_apply f

@[simp] theorem encFrame_decFrame (p : Params) (f : Frame) : encFrame p (decFrame p f) = f :=
  (p.cipher frameBlocks p.key).apply_symm_apply f

/-- A draw is the next one lined up, or a free value. -/
theorem draw_cases {α : Type} (free : Nat → α) (q : Draws α) :
    (∃ v vs, q.lined = v :: vs ∧ draw free q = (v, { q with lined := vs })) ∨
      (q.lined = [] ∧ draw free q = (free q.taken, { q with taken := q.taken + 1 })) := by
  unfold draw
  cases h : q.lined with
  | nil => exact .inr ⟨rfl, rfl⟩
  | cons v vs => exact .inl ⟨v, vs, rfl, rfl⟩

/-- What the flash driver's write can do (20_memory.md R47). -/
theorem memWrite_cases (addr : Nat) (v : List Byte) (s : State) :
    (flashResult s = .ok ∧
        memWrite addr v s = { resultTaken s with log.flash := Memory.writeBytes s.log.flash addr v }) ∨
      (flashResult s = .fail ∧ memWrite addr v s = tearFlash addr v (resultTaken s)) := by
  unfold memWrite
  cases h : flashResult s with
  | ok => exact .inl ⟨rfl, rfl⟩
  | fail => exact .inr ⟨rfl, rfl⟩

/-- What the flash driver's erase can do (20_memory.md R48). -/
theorem flashErase_cases (p : Params) (s : State) :
    (flashResult s = .ok ∧
        flashErase p s =
          { resultTaken s with log.flash := Memory.ofBytes 0 (erasedRegion p) }) ∨
      (flashResult s = .fail ∧ flashErase p s = tearFlash 0 (erasedRegion p) (resultTaken s)) := by
  unfold flashErase
  cases h : flashResult s with
  | ok => exact .inl ⟨rfl, rfl⟩
  | fail => exact .inr ⟨rfl, rfl⟩

theorem deriveIdentity_cases (p : Params) (s : State) :
    (s.cod.idValid = true ∧ deriveIdentity p s = ret .errIdset (s.cod.tagId.zeroExtend 32) s) ∨
      (s.cod.idValid = false ∧
        deriveIdentity p s =
          ret .ok ((p.crc16 (unpack s.cod.uid.toList)).zeroExtend 32)
            { s with cod.tagId := p.crc16 (unpack s.cod.uid.toList), cod.idValid := true }) := by
  unfold deriveIdentity
  cases h : s.cod.idValid with
  | true => exact .inl ⟨rfl, rfl⟩
  | false => exact .inr ⟨rfl, rfl⟩

theorem drawJitter_cases (p : Params) (range : Word) (s : State) :
    (range = 0#32 ∧ drawJitter p range s = ret .errRange 0#32 s) ∨
      (range ≠ 0#32 ∧
        drawJitter p range s =
          ret .ok (BitVec.ofNat 32 ((jitMix (advanceJit p (timerSample s) s.jit)).toNat % range.toNat))
            { timerTaken s with jit := advanceJit p (timerSample s) s.jit }) := by
  unfold drawJitter
  by_cases h : range = 0#32
  · exact .inl ⟨h, if_pos h⟩
  · exact .inr ⟨h, if_neg h⟩

theorem encodeFrame_cases (p : Params) (s : State) :
    (s.cod.idValid = false ∧ encodeFrame p s = ret .errNoid 0#32 s) ∨
      (s.cod.idValid = true ∧
        encodeFrame p s =
          ret .ok ((frameCrc p (timerSample s) s).zeroExtend 32)
            { timerTaken s with cod.frame := builtFrame p (timerSample s) s, cod.fstate := .built }) := by
  unfold encodeFrame
  cases h : s.cod.idValid with
  | true => exact .inr ⟨rfl, rfl⟩
  | false => exact .inl ⟨rfl, rfl⟩

theorem encryptFrame_cases (p : Params) (s : State) :
    (s.cod.fstate ≠ .built ∧ encryptFrame p s = ret .errSeq 0#32 s) ∨
      (s.cod.fstate = .built ∧
        encryptFrame p s = ret .ok 0#32 { s with cod.frame := encFrame p s.cod.frame, cod.fstate := .raw }) := by
  unfold encryptFrame
  by_cases h : s.cod.fstate = .built
  · exact .inr ⟨h, if_pos h⟩
  · exact .inl ⟨h, if_neg h⟩

theorem verifyFrame_cases (p : Params) (s : State) :
    (s.cod.fstate ≠ .raw ∧ verifyFrame p s = ret .errSeq 0#32 s) ∨
      (s.cod.fstate = .raw ∧ computedCrc p (decFrame p s.cod.frame) ≠ embeddedCrc (decFrame p s.cod.frame) ∧
        verifyFrame p s =
          ret .rejected 1#32 { s with cod.frame := decFrame p s.cod.frame, cod.fstate := .empty }) ∨
      (s.cod.fstate = .raw ∧ computedCrc p (decFrame p s.cod.frame) = embeddedCrc (decFrame p s.cod.frame) ∧
        (decFrame p s.cod.frame)[0] ≠ p.protoBeacontracker ∧
        verifyFrame p s =
          ret .rejected 2#32 { s with cod.frame := decFrame p s.cod.frame, cod.fstate := .empty }) ∨
      (s.cod.fstate = .raw ∧ computedCrc p (decFrame p s.cod.frame) = embeddedCrc (decFrame p s.cod.frame) ∧
        (decFrame p s.cod.frame)[0] = p.protoBeacontracker ∧
        verifyFrame p s =
          ret .ok ((frameOid (decFrame p s.cod.frame)).zeroExtend 32)
            { s with
              cod :=
                { accountPeer (decFrame p s.cod.frame) s.cod with
                  frame := decFrame p s.cod.frame, fstate := .verified } }) := by
  unfold verifyFrame
  by_cases h : s.cod.fstate = .raw
  · rw [if_pos h]
    by_cases hc : computedCrc p (decFrame p s.cod.frame) = embeddedCrc (decFrame p s.cod.frame)
    · by_cases hp : (decFrame p s.cod.frame)[0] = p.protoBeacontracker
      · exact .inr (.inr (.inr ⟨h, hc, hp, by simp only [hc, hp, if_true]⟩))
      · exact .inr (.inr (.inl ⟨h, hc, hp, by simp only [hc, if_true, if_neg hp]⟩))
    · exact .inr (.inl ⟨h, hc, by simp only [if_neg hc]⟩)
  · exact .inl ⟨h, if_neg h⟩

/-- What APPEND does before the flash write (43_log.md R130). -/
theorem appendPrepare_cases (p : Params) (s : State) :
    (s.cod.fstate ≠ .verified ∧ appendPrepare p s = .error (ret .errSeq 0#32 s)) ∨
      (s.cod.fstate = .verified ∧ s.log.cursor.toNat % entryBytes ≠ 0 ∧
        appendPrepare p s = .error (ret .errCursor s.log.cursor (setFState .empty s))) ∨
      (s.cod.fstate = .verified ∧ s.log.cursor.toNat % entryBytes = 0 ∧
        p.logCapacity.val < s.log.cursor.toNat + entryBytes ∧
        appendPrepare p s = .error (ret .storageFull s.log.cursor (setFState .empty s))) ∨
      (s.cod.fstate = .verified ∧ s.log.cursor.toNat % entryBytes = 0 ∧
        s.log.cursor.toNat + entryBytes ≤ p.logCapacity.val ∧
        appendPrepare p s =
          .ok (logEntry p (timerSample s) s.cod.frame, timerTaken (setFState .empty s))) := by
  unfold appendPrepare
  by_cases h : s.cod.fstate = .verified
  · rw [if_pos h]
    by_cases hc : s.log.cursor.toNat % entryBytes = 0
    · rw [if_pos hc]
      by_cases hf : p.logCapacity.val < s.log.cursor.toNat + entryBytes
      · exact .inr (.inr (.inl ⟨h, hc, hf, by simp [logFull, hf]⟩))
      · exact .inr (.inr (.inr ⟨h, hc, by omega, by simp [logFull, hf]⟩))
    · exact .inr (.inl ⟨h, hc, if_neg hc⟩)
  · exact .inl ⟨h, if_neg h⟩

/-- What the flash write of APPEND can do (43_log.md R134). -/
theorem appendWrite_cases (entry : List Byte) (s : State) :
    (flashResult s = .ok ∧ appendWrite entry s = .ok (setPhase .aCommit (memWrite s.log.cursor.toNat entry s))) ∨
      (flashResult s = .fail ∧
        appendWrite entry s =
          .error (ret .writeFail s.log.cursor (setPhase .idle (memWrite s.log.cursor.toNat entry s)))) := by
  unfold appendWrite
  cases h : flashResult s with
  | ok => exact .inl ⟨rfl, rfl⟩
  | fail => exact .inr ⟨rfl, rfl⟩

/-- What a step can do: nothing, or the next event (20_memory.md R55). -/
theorem stepWith_cases (p : Params) (run : Runner) (s : State) :
    (s.port.inbox = [] ∧ stepWith p run s = .next s) ∨
      (∃ e rest, s.port.inbox = e :: rest ∧ stepWith p run s = takeEvent p run e { s with port.inbox := rest }) := by
  unfold stepWith
  cases h : s.port.inbox with
  | nil => exact .inl ⟨rfl, rfl⟩
  | cons e rest => exact .inr ⟨e, rest, rfl, rfl⟩

/-- A length that every entry has (30_encoding.md R72). -/
@[simp] theorem logEntry_length (p : Params) (t : Word) (f : Frame) : (logEntry p t f).length = entryBytes := by
  simp [logEntry, entryBody, be16, be32]

@[simp] theorem frameBody_length (p : Params) (t : Word) (s : State) : (frameBody p t s).length = 18 := rfl

end Sys2Proof.Machine
end

