-- ==== Sys2Proof/Laws/PerInstr.lean ====
section
/-! SUPPORT. Statements made per instruction. `FieldPlacement`: where an encoded command keeps its opcode and its operand
(30_encoding.md R60, R62, R64). -/

namespace Sys2Proof.Laws.FieldPlacement

/-- Bits 31:24 of the word are the opcode of the row (30_encoding.md R65) and bits 23:0 are zero, or for NEXTI the low 24
bits of the immediate. -/
def Statement (i : Instr) : Prop :=
  match i with
  | .nop => (encode i).extractLsb' 24 8 = 0x00#8 ∧ (encode i).extractLsb' 0 24 = 0#24
  | .setid => (encode i).extractLsb' 24 8 = 0x01#8 ∧ (encode i).extractLsb' 0 24 = 0#24
  | .next => (encode i).extractLsb' 24 8 = 0x10#8 ∧ (encode i).extractLsb' 0 24 = 0#24
  | .nexti imm => (encode i).extractLsb' 24 8 = 0x11#8 ∧ (encode i).extractLsb' 0 24 = imm.extractLsb' 0 24
  | .observe => (encode i).extractLsb' 24 8 = 0x20#8 ∧ (encode i).extractLsb' 0 24 = 0#24
  | .encode => (encode i).extractLsb' 24 8 = 0x30#8 ∧ (encode i).extractLsb' 0 24 = 0#24
  | .encrypt => (encode i).extractLsb' 24 8 = 0x31#8 ∧ (encode i).extractLsb' 0 24 = 0#24
  | .verify => (encode i).extractLsb' 24 8 = 0x32#8 ∧ (encode i).extractLsb' 0 24 = 0#24
  | .append => (encode i).extractLsb' 24 8 = 0x40#8 ∧ (encode i).extractLsb' 0 24 = 0#24
  | .erase => (encode i).extractLsb' 24 8 = 0x41#8 ∧ (encode i).extractLsb' 0 24 = 0#24

theorem nop : Statement .nop := by constructor <;> decide

theorem setid : Statement .setid := by constructor <;> decide

theorem next : Statement .next := by constructor <;> decide

theorem nexti (imm : Word) : Statement (.nexti imm) := by
  constructor
  · ext i hi
    have := BitVec.getLsbD_append (x := 0x11#8) (y := imm.extractLsb' 0 24) (i := 24 + i)
    simpa [Sys2Proof.encode, BitVec.getLsbD_eq_getElem, hi] using this
  · ext i hi
    have := BitVec.getLsbD_append (x := 0x11#8) (y := imm.extractLsb' 0 24) (i := i)
    simpa [Sys2Proof.encode, hi] using this

theorem observe : Statement .observe := by constructor <;> decide

theorem encode : Statement .encode := by constructor <;> decide

theorem encrypt : Statement .encrypt := by constructor <;> decide

theorem verify : Statement .verify := by constructor <;> decide

theorem append : Statement .append := by constructor <;> decide

theorem erase : Statement .erase := by constructor <;> decide

end Sys2Proof.Laws.FieldPlacement
end

