-- ==== Sys2Proof/Laws/Step.lean ====
section
/-! SUPPORT. What an event, a transaction and a reset can do, said once, for the statements about steps and runs. -/

namespace Sys2Proof.Machine

/-- A run of one step more, where that step gives a next state. -/
theorem run_succ_of_next {n : Nat} {s u : State} (h : step s = .next u) :
    Host.Core.run Sys2Proof.core (n + 1) s = Host.Core.run Sys2Proof.core n u := by
  have h' : Sys2Proof.core.step s = .next u := h
  simp only [Host.Core.run, h']

/-- A run of one step more that ends in a next state began with a step that did. -/
theorem run_succ_next {n : Nat} {s t : State} (h : Host.Core.run Sys2Proof.core (n + 1) s = .next t) :
    ∃ u, step s = .next u ∧ Host.Core.run Sys2Proof.core n u = .next t := by
  simp only [Host.Core.run] at h
  cases hs : step s with
  | next u =>
    have hs' : Sys2Proof.core.step s = .next u := hs
    rw [hs'] at h
    exact ⟨u, rfl, h⟩
  | fault r =>
    have hs' : Sys2Proof.core.step s = .fault r := hs
    rw [hs'] at h
    cases h
  | refused r =>
    have hs' : Sys2Proof.core.step s = .refused r := hs
    rw [hs'] at h
    cases h

/-- The dispatch is that of the configuration `Config.params` (00_scope.md R3). -/
theorem exec_eq_execIn : exec = execIn Config.params := by
  funext i s
  cases i <;> rfl

/-- The machine of the fixed names is that of the configuration `Config.params` (00_scope.md R3). -/
theorem step_eq_stepIn : step = stepIn Config.params := by
  funext s
  unfold step stepIn
  rw [exec_eq_execIn]

theorem reset_eq_resetIn : State.reset = resetIn Config.params := rfl

/-- A step with an event to come is that event. -/
theorem step_pending (e : Event) (rest : List Event) (s : State) :
    step (pending e rest s) = takeEvent Config.params exec e { s with port.inbox := rest } := rfl

/-- A request on a free port is its transaction. -/
theorem takeEvent_request (p : Params) (run : Runner) (r : Request) (s : State) (h : s.port.status ≠ .outstanding) :
    takeEvent p run (.request r) s = transact p run r s :=
  if_neg h

/-- A transaction begun on a free port. -/
theorem takeEvent_begun (p : Params) (run : Runner) (r : Request) (n : Nat) (s : State)
    (h : s.port.status ≠ .outstanding) : takeEvent p run (.begun r n) s = .next (stateInside p r n s) :=
  if_neg h

/-- Where a request is answered with a next state, the port was free. -/
theorem takeEvent_request_next {p : Params} {run : Runner} {r : Request} {s t : State}
    (h : takeEvent p run (.request r) s = .next t) : s.port.status ≠ .outstanding ∧ transact p run r s = .next t := by
  by_cases hs : s.port.status = .outstanding
  · have : takeEvent p run (.request r) s = .fault .requestWhileOutstanding := if_pos hs
    rw [this] at h
    cases h
  · exact ⟨hs, (takeEvent_request p run r s hs).symm.trans h⟩

/-- Where a begun transaction has a next state, the port was free. -/
theorem takeEvent_begun_next {p : Params} {run : Runner} {r : Request} {n : Nat} {s t : State}
    (h : takeEvent p run (.begun r n) s = .next t) : s.port.status ≠ .outstanding ∧ stateInside p r n s = t := by
  by_cases hs : s.port.status = .outstanding
  · have : takeEvent p run (.begun r n) s = .fault .requestWhileOutstanding := if_pos hs
    rw [this] at h
    cases h
  · have := (takeEvent_begun p run r n s hs).symm.trans h
    cases this
    exact ⟨hs, rfl⟩

/-- What a write of a register leaves alone (20_memory.md R42, 10_state.md R27). -/
theorem writeReg_frame {r : Reg} {w : Word} {s t : State} (h : writeReg r w s = some t) :
    t.log = s.log ∧ t.port = s.port ∧ t.env = s.env ∧ t.mot.buf = s.mot.buf ∧ t.mot.sum = s.mot.sum ∧
      t.mot.pos = s.mot.pos ∧ t.mot.warm = s.mot.warm ∧ t.mot.ticks = s.mot.ticks ∧ t.cod.tagId = s.cod.tagId ∧
      t.cod.idValid = s.cod.idValid ∧ (s.cod.idValid = true → t.cod.uid = s.cod.uid) := by
  cases r <;> simp only [writeReg, reduceCtorEq, Option.some.injEq] at h
  case uid i =>
    split at h
    · cases h
    · rename_i hv
      cases h
      exact ⟨rfl, rfl, rfl, rfl, rfl, rfl, rfl, rfl, rfl, rfl, fun hh => absurd hh hv⟩
  all_goals
    cases h
    exact ⟨rfl, rfl, rfl, rfl, rfl, rfl, rfl, rfl, rfl, rfl, fun _ => rfl⟩

/-- The flash driver's write changes nothing but the region and the draws (20_memory.md R47). -/
theorem memWrite_frame (addr : Nat) (v : List Byte) (s : State) :
    (memWrite addr v s).sys = s.sys ∧ (memWrite addr v s).jit = s.jit ∧ (memWrite addr v s).mot = s.mot ∧
      (memWrite addr v s).cod = s.cod ∧ (memWrite addr v s).port = s.port ∧
      (memWrite addr v s).log = { s.log with flash := (memWrite addr v s).log.flash } ∧
      ∀ a, a < addr ∨ addr + v.length ≤ a → (memWrite addr v s).log.flash.read a = s.log.flash.read a := by
  rcases memWrite_cases addr v s with ⟨_, e⟩ | ⟨_, e⟩ <;> rw [e]
  · exact ⟨rfl, rfl, rfl, rfl, rfl, rfl, fun a h => Memory.read_writeBytes_outside v _ h⟩
  · exact ⟨rfl, rfl, rfl, rfl, rfl, rfl, fun a h => tearBytes_read_outside v _ _ h⟩

/-- The flash driver's erase changes nothing but the region and the draws (20_memory.md R48). -/
theorem flashErase_frame (p : Params) (s : State) :
    (flashErase p s).sys = s.sys ∧ (flashErase p s).jit = s.jit ∧ (flashErase p s).mot = s.mot ∧
      (flashErase p s).cod = s.cod ∧ (flashErase p s).port = s.port ∧
      (flashErase p s).log = { s.log with flash := (flashErase p s).log.flash } := by
  rcases flashErase_cases p s with ⟨_, e⟩ | ⟨_, e⟩ <;> rw [e] <;> exact ⟨rfl, rfl, rfl, rfl, rfl, rfl⟩

/-- The length of what an erase stores. -/
@[simp] theorem erasedRegion_length (p : Params) : (erasedRegion p).length = p.logCapacity.val := by
  simp [erasedRegion]

/-- The next free offset does not wrap where an entry fits (43_log.md R130, R132). -/
theorem nextCursor_toNat {p : Params} (s : State) (h : s.log.cursor.toNat + entryBytes ≤ p.logCapacity.val) :
    (nextCursor s).toNat = s.log.cursor.toNat + entryBytes := by
  have := p.logCapacity.isLt
  simp only [nextCursor, BitVec.toNat_add, BitVec.toNat_ofNat, entryBytes] at *
  omega

/-- A reset on the update of CURSOR leaves the old value or the new one, and nothing else of the log changes
(20_memory.md R52(b)). -/
theorem cutCommit_cases (new : Word) (s : State) :
    (cutCommit new s).log = s.log ∨ (cutCommit new s).log = { s.log with cursor := new } := by
  unfold cutCommit
  cases commitDraw s
  · exact .inl rfl
  · exact .inr rfl

/-- What a reset leaves alone of the log unit, and of everything else before the volatile domain is cleared
(43_log.md R136, R141). -/
theorem cutLog_frame (p : Params) (s : State) :
    (cutLog p s).port = s.port ∧ (cutLog p s).sys = s.sys ∧
      (cutLog p s).jit = s.jit ∧ (cutLog p s).mot = s.mot ∧ (cutLog p s).cod = s.cod := by
  unfold cutLog
  split <;> exact ⟨rfl, rfl, rfl, rfl, rfl⟩

/-- Outside APPEND and ERASE a reset touches neither the cursor nor the region (70_reset_and_hazards.md R195). -/
theorem cutLog_idle {p : Params} {s : State} (h : s.log.phase = .idle) : cutLog p s = s := by
  simp [cutLog, h]

/-- What a WARM reset makes of the log unit and of the port (70_reset_and_hazards.md R195). -/
theorem resetMove_warm (p : Params) (s : State) :
    (resetMove p .warm s).log =
        { cursor := (cutLog p s).log.cursor, phase := .idle, flash := (cutLog p s).log.flash } ∧
      (resetMove p .warm s).port = { inbox := s.port.inbox, status := .quiet } := by
  obtain ⟨h2, _⟩ := cutLog_frame p s
  constructor
  · rfl
  · show Port.mk (cutLog p s).port.inbox _ = Port.mk _ _
    rw [h2]
    rfl

/-- The volatile domain after a reset, of either kind (10_state.md R39). -/
theorem resetMove_volatile (p : Params) (k : ResetKind) (s : State) : volatileAtReset p (resetMove p k s) := by
  have h : ∀ t : State, volatileAtReset p (volatileReset p t) := by
    intro t
    refine ⟨rfl, rfl, rfl, ?_, ?_, rfl, rfl, rfl, rfl, ?_, rfl, rfl, rfl, rfl, rfl, rfl, rfl, rfl, ?_, rfl, rfl⟩
    · simp [volatileReset, initialState]
    · exact fun b hb => List.eq_of_mem_replicate hb
    · intro i
      simp [volatileReset, initialState]
    · intro i
      simp [volatileReset, initialState]
  cases k with
  | warm => exact h (cutLog p s)
  | cold contents => exact h _

/-- The number of CMD is 0x00 and no other number names CMD (10_state.md R10). -/
theorem regOfNumber_cmd {rn : Byte} (h : regOfNumber rn = some .cmd) : rn = 0x00#8 := by
  unfold regOfNumber at h
  split at h <;> simp at h
  apply BitVec.eq_of_toNat_eq
  assumption

/-- To show something of every state inside a transaction, show it of the state before, of every state of a command, of the
two states of an illegal word, and of a register written (30_encoding.md R61, 20_memory.md R42). -/
theorem forall_requestStates (p : Params) (P : State → Prop) (r : Request) (s : State) (h0 : P s)
    (hcommand : ∀ w i, r = .write 0x00#8 w → decode w = .ok i → ∀ x ∈ commandStates p i (setCmd w s), P x)
    (hillegal : ∀ w, P (setCmd w s) ∧ P (illegalCommand (setCmd w s)))
    (hwrite : ∀ r w t, writeReg r w s = some t → P t) : ∀ x ∈ requestStates p r s, P x := by
  cases r with
  | read rn => simp [requestStates, h0]
  | write rn w =>
    simp only [requestStates]
    split
    · simp [h0]
    · rename_i hr
      have := regOfNumber_cmd hr
      subst this
      split
      · rename_i i hd
        simp only [List.mem_cons]
        rintro x (rfl | hx)
        · exact h0
        · exact hcommand w i rfl hd x hx
      · simp [h0, hillegal w]
    · split
      · rename_i hh
        simp only [List.mem_cons, List.not_mem_nil, or_false]
        rintro x (rfl | rfl)
        · exact h0
        · exact hwrite _ _ _ hh
      · simp [h0]

/-- The state inside a transaction is one of those the transaction passes through, unanswered
(70_reset_and_hazards.md R197). -/
theorem stateInside_mem (p : Params) (r : Request) (n : Nat) (s : State) :
    ∃ x, (x = s ∨ x ∈ requestStates p r s) ∧ stateInside p r n s = leaveOutstanding x := by
  refine ⟨_, ?_, rfl⟩
  by_cases h : n < (requestStates p r s).length
  · right
    simp [List.getD, h]
  · rw [List.getD_eq_default _ _ (by omega)]
    cases he : requestStates p r s with
    | nil => exact .inl rfl
    | cons a l =>
      right
      rw [List.getLastD_eq_getLast?, List.getLast?_eq_getLast_of_ne_nil (by simp)]
      exact List.getLast_mem _

/-- A command other than APPEND and ERASE changes neither the log unit nor the port at any moment (20_memory.md R53). -/
theorem commandStates_other {p : Params} {i : Instr} {s : State} (ha : i ≠ .append) (he : i ≠ .erase) :
    ∀ x ∈ commandStates p i s, x.log = s.log ∧ x.port = s.port := by
  cases i
  case append => exact absurd rfl ha
  case erase => exact absurd rfl he
  all_goals
    simp only [commandStates, List.mem_cons, List.not_mem_nil, or_false]
    rintro x (rfl | rfl)
    · exact ⟨rfl, rfl⟩
  · exact ⟨rfl, rfl⟩
  · rcases deriveIdentity_cases p s with ⟨_, h⟩ | ⟨_, h⟩ <;> rw [h] <;> exact ⟨rfl, rfl⟩
  · rcases drawJitter_cases p s.jit.arg s with ⟨_, h⟩ | ⟨_, h⟩ <;> rw [h] <;> exact ⟨rfl, rfl⟩
  · rename_i imm
    rcases drawJitter_cases p imm s with ⟨_, h⟩ | ⟨_, h⟩ <;> rw [h] <;> exact ⟨rfl, rfl⟩
  · exact ⟨rfl, rfl⟩
  · rcases encodeFrame_cases p s with ⟨_, h⟩ | ⟨_, h⟩ <;> rw [h] <;> exact ⟨rfl, rfl⟩
  · rcases encryptFrame_cases p s with ⟨_, h⟩ | ⟨_, h⟩ <;> rw [h] <;> exact ⟨rfl, rfl⟩
  · rcases verifyFrame_cases p s with ⟨_, h⟩ | ⟨_, _, h⟩ | ⟨_, _, _, h⟩ | ⟨_, _, _, h⟩ <;> rw [h] <;> exact ⟨rfl, rfl⟩

/-- The states APPEND can pass through, by the tests and the driver's report (43_log.md R130, R136). -/
theorem appendStates_cases (p : Params) (s : State) :
    (∃ t, appendPrepare p s = .error t ∧ appendStates p s = [s, t]) ∨
      ∃ e t, appendPrepare p s = .ok (e, t) ∧
        ((∃ u, appendWrite e (setPhase (.aWrite e) t) = .error u ∧
            appendStates p s = [s, t, setPhase (.aWrite e) t, u]) ∨
          ∃ u, appendWrite e (setPhase (.aWrite e) t) = .ok u ∧
            appendStates p s =
              [s, t, setPhase (.aWrite e) t, u, appendCommit u,
                ret .ok (appendCommit u).log.cursor (appendCommit u)]) := by
  unfold appendStates
  cases h : appendPrepare p s with
  | error t => exact .inl ⟨t, rfl, rfl⟩
  | ok et =>
    obtain ⟨e, t⟩ := et
    refine .inr ⟨e, t, rfl, ?_⟩
    cases hw : appendWrite e (setPhase (.aWrite e) t) with
    | error u => exact .inl ⟨u, rfl, by simp only [hw]⟩
    | ok u => exact .inr ⟨u, rfl, by simp only [hw]⟩

/-- APPEND run whole ends in one of the states it passes through (43_log.md R130). -/
theorem append_mem_appendStates (p : Params) (s : State) : append p s ∈ appendStates p s := by
  rcases appendStates_cases p s with ⟨t, h, e⟩ | ⟨en, t, h, ⟨u, hu, e⟩ | ⟨u, hu, e⟩⟩ <;> rw [e] <;>
    simp only [append, h]
  · simp
  · simp [hu]
  · simp [hu]

/-- Inside a command the port stands as it did (20_memory.md R45). -/
theorem commandStates_port (p : Params) (i : Instr) (s : State) : ∀ x ∈ commandStates p i s, x.port = s.port := by
  by_cases ha : i = .append
  · subst ha
    have hprep : ∀ t, appendPrepare p s = .error t → t.port = s.port := by
      intro t h
      rcases appendPrepare_cases p s with ⟨_, e⟩ | ⟨_, _, e⟩ | ⟨_, _, _, e⟩ | ⟨_, _, _, e⟩ <;> rw [e] at h <;> cases h <;> rfl
    have hok : ∀ e t, appendPrepare p s = .ok (e, t) → t.port = s.port := by
      intro e t h
      rcases appendPrepare_cases p s with ⟨_, e⟩ | ⟨_, _, e⟩ | ⟨_, _, _, e⟩ | ⟨_, _, _, e⟩ <;> rw [e] at h <;> cases h
      rfl
    have hwr : ∀ e t, (∀ u, appendWrite e t = .error u → u.port = t.port) ∧ ∀ u, appendWrite e t = .ok u → u.port = t.port := by
      intro e t
      have hm := (memWrite_frame t.log.cursor.toNat e t).2.2.2.2.1
      rcases appendWrite_cases e t with ⟨_, he⟩ | ⟨_, he⟩ <;> rw [he] <;>
        refine ⟨fun u h => ?_, fun u h => ?_⟩ <;> cases h <;> exact hm
    show ∀ x ∈ appendStates p s, x.port = s.port
    intro x hx
    rcases appendStates_cases p s with ⟨t, h, e⟩ | ⟨en, t, h, ⟨u, hu, e⟩ | ⟨u, hu, e⟩⟩ <;> rw [e] at hx <;>
      simp only [List.mem_cons, List.not_mem_nil, or_false] at hx
    · rcases hx with rfl | rfl
      · rfl
      · exact hprep _ h
    · have h4 := ((hwr en _).1 u hu).trans (hok en t h)
      rcases hx with rfl | rfl | rfl | rfl
      · rfl
      · exact hok _ _ h
      · exact hok en t h
      · exact h4
    · have h4 := ((hwr en _).2 u hu).trans (hok en t h)
      rcases hx with rfl | rfl | rfl | rfl | rfl | rfl
      · rfl
      · exact hok _ _ h
      · exact hok en t h
      · exact h4
      · exact h4
      · exact h4
  · by_cases he : i = .erase
    · subst he
      have hm := (flashErase_frame p (eraseRewind (eraseStart s))).2.2.2.2.1
      show ∀ x ∈ eraseStates p s, x.port = s.port
      intro x hx
      simp only [eraseStates, List.mem_cons, List.not_mem_nil, or_false] at hx
      rcases hx with rfl | rfl | rfl | rfl | rfl
      · rfl
      · rfl
      · rfl
      · exact hm
      · exact hm
    · exact fun x hx => (commandStates_other ha he x hx).2

/-- Inside a transaction the port stands as it did before it (20_memory.md R45). -/
theorem requestStates_port (p : Params) (r : Request) (s : State) : ∀ x ∈ requestStates p r s, x.port = s.port :=
  forall_requestStates p (fun x => x.port = s.port) r s rfl (fun _ _ _ _ => commandStates_port p _ _)
    (fun _ => ⟨rfl, rfl⟩) (fun _ _ _ h => (writeReg_frame h).2.1)

/-- What stands inside a transaction has the events still to come that stood before it, and no answer
(70_reset_and_hazards.md R197). -/
theorem stateInside_port (p : Params) (r : Request) (n : Nat) (s : State) :
    (stateInside p r n s).port = { inbox := s.port.inbox, status := .outstanding } := by
  obtain ⟨x, hx, e⟩ := stateInside_mem p r n s
  rw [e]
  have : x.port = s.port := hx.elim (fun h => by rw [h]) (requestStates_port p r s x)
  show Port.mk x.port.inbox _ = _
  rw [this]

end Sys2Proof.Machine
end

