-- ==== Sys2Proof/Machine/Parse.lean ====
section
/-! DEFINITION. The line-oriented text of the assembly notation: one statement or pseudo-instruction per line, comments,
numbers, register names (30_encoding.md R67, R68). A line is a list of characters; what a line does not fix (how blanks
and commas stand, a number too large for its place) is log entry 11. -/

namespace Sys2Proof.Machine

/-- Why a line of text is no statement. -/
inductive ParseError where
  /-- the first word is no statement and no pseudo-instruction of 30_encoding.md R67, R68 -/
  | unknownStatement (word : List Char)
  /-- the operand is no register name of 10_state.md R10 -/
  | unknownRegister (text : List Char)
  /-- the operand is no decimal or `0x` hexadecimal number below 2^32 -/
  | badNumber (text : List Char)
  /-- the immediate of `nexti` is above 0xFFFFFF -/
  | immediateTooLarge (imm : Word)
  /-- the statement does not take this many operands, or not these -/
  | wrongOperands (word : List Char)
  deriving DecidableEq, Repr

/-- A blank of a line. -/
def isBlank (c : Char) : Bool :=
  c == ' ' || c == '\t' || c == '\r'

/-- The text without the blanks at its ends. -/
def trimBlanks (text : List Char) : List Char :=
  ((text.dropWhile isBlank).reverse.dropWhile isBlank).reverse

/-- `;` starts a comment, which runs to the end of the line (30_encoding.md R67). -/
def stripComment (line : List Char) : List Char :=
  line.takeWhile (fun c => !(c == ';'))

/-- The pieces of a text between the separators `sep`. -/
def splitAtChar (sep : Char) : List Char → List (List Char)
  | [] => [[]]
  | c :: cs =>
    match splitAtChar sep cs with
    | [] => if c == sep then [[], []] else [[c]]
    | p :: ps => if c == sep then [] :: p :: ps else (c :: p) :: ps

/-- The operands of a statement: none, or the pieces between commas, without the blanks around them. -/
def operandsOf (text : List Char) : List (List Char) :=
  match trimBlanks text with
  | [] => []
  | c :: cs => (splitAtChar ',' (c :: cs)).map trimBlanks

/-- The value of a digit in the base, if it is one. -/
def digitValue (base : Nat) (c : Char) : Option Nat :=
  let n := c.toNat
  let v :=
    if 48 ≤ n ∧ n ≤ 57 then n - 48
    else if 65 ≤ n ∧ n ≤ 70 then n - 55
    else if 97 ≤ n ∧ n ≤ 102 then n - 87
    else base
  if v < base then some v else none

/-- The number that the digits continue, the part before them being `acc`. -/
def digitsValue (base acc : Nat) : List Char → Option Nat
  | [] => some acc
  | c :: cs =>
    match digitValue base c with
    | some d => digitsValue base (acc * base + d) cs
    | none => none

/-- Numbers are decimal or `0x` hexadecimal (30_encoding.md R67). DESIGN CHOICE, safe (log entry 11): R67 gives a number no
sign, and R68 says of negative operands only that they are written as their 32-bit two's complement; a minus sign is no
part of a number here, so that `observe3 0,0,-4` is refused as `badNumber` and is written `observe3 0,0,0xFFFFFFFC`. -/
def numberValue : List Char → Option Nat
  | [] => none
  | '0' :: 'x' :: [] => none
  | '0' :: 'x' :: d :: ds => digitsValue 16 0 (d :: ds)
  | d :: ds => digitsValue 10 0 (d :: ds)

/-- A number as a word of the host port. -/
def parseWord (text : List Char) : Except ParseError Word :=
  match numberValue text with
  | some n => if n < 2 ^ 32 then .ok (BitVec.ofNat 32 n) else .error (.badNumber text)
  | none => .error (.badNumber text)

/-- The register names of 10_state.md R10. -/
def regNames : List (List Char × Reg) :=
  [(['C', 'M', 'D'], .cmd), (['R', 'C'], .rc), (['R', 'E', 'S'], .res), (['S', 'T', 'A', 'T', 'U', 'S'], .status),
    (['A', 'R', 'G'], .arg), (['S', 'X'], .sx), (['S', 'Y'], .sy), (['S', 'Z'], .sz)] ++
  [(['U', 'I', 'D', '0'], .uid 0), (['U', 'I', 'D', '1'], .uid 1), (['U', 'I', 'D', '2'], .uid 2),
    (['U', 'I', 'D', '3'], .uid 3), (['T', 'A', 'G', 'I', 'D'], .tagid), (['T', 'X', 'L', 'E', 'V', 'E', 'L'], .txlevel),
    (['T', 'X', 'S', 'E', 'Q'], .txseq), (['B', 'A', 'T', 'T', 'E', 'R', 'Y'], .battery)] ++
  [(['P', 'E', 'E', 'R', 'L', 'A', 'S', 'T'], .peerlast), (['P', 'E', 'E', 'R', 'L', 'O', 'W'], .peerlow),
    (['P', 'E', 'E', 'R', 'H', 'I', 'G', 'H'], .peerhigh), (['F', '0'], .f 0), (['F', '1'], .f 1), (['F', '2'], .f 2),
    (['F', '3'], .f 3), (['F', '4'], .f 4), (['C', 'U', 'R', 'S', 'O', 'R'], .cursor),
    (['L', 'O', 'G', 'C', 'A', 'P'], .logcap)] ++
  [(['T', 'I', 'C', 'K', 'S'], .ticks), (['P', 'O', 'S'], .pos), (['S', 'U', 'M', 'X'], .sumx),
    (['S', 'U', 'M', 'Y'], .sumy), (['S', 'U', 'M', 'Z'], .sumz), (['V', '1'], .v1), (['V', '2'], .v2),
    (['S', 'E', 'E', 'D'], .seed)]

/-- A register by its name, in capital or small letters (30_encoding.md R67). -/
def parseReg (text : List Char) : Except ParseError Reg :=
  match regNames.lookup (text.map Char.toUpper) with
  | some r => .ok r
  | none => .error (.unknownRegister text)

/-- The command statements without an operand (30_encoding.md R67). -/
def commandNames : List (List Char × Instr) :=
  [(['n', 'o', 'p'], .nop), (['s', 'e', 't', 'i', 'd'], .setid), (['n', 'e', 'x', 't'], .next),
    (['o', 'b', 's', 'e', 'r', 'v', 'e'], .observe), (['e', 'n', 'c', 'o', 'd', 'e'], .encode),
    (['e', 'n', 'c', 'r', 'y', 'p', 't'], .encrypt), (['v', 'e', 'r', 'i', 'f', 'y'], .verify),
    (['a', 'p', 'p', 'e', 'n', 'd'], .append), (['e', 'r', 'a', 's', 'e'], .erase)]

/-- The other statements and the pseudo-instructions (30_encoding.md R67, R68). -/
inductive Head where
  | wr | rd | nexti | reset | nextr | observe3 | setuid | ldframe | rdframe | status
  deriving DecidableEq, Repr

/-- Their first words. -/
def headNames : List (List Char × Head) :=
  [(['w', 'r'], .wr), (['r', 'd'], .rd), (['n', 'e', 'x', 't', 'i'], .nexti), (['r', 'e', 's', 'e', 't'], .reset),
    (['n', 'e', 'x', 't', 'r'], .nextr), (['o', 'b', 's', 'e', 'r', 'v', 'e', '3'], .observe3),
    (['s', 'e', 't', 'u', 'i', 'd'], .setuid), (['l', 'd', 'f', 'r', 'a', 'm', 'e'], .ldframe),
    (['r', 'd', 'f', 'r', 'a', 'm', 'e'], .rdframe), (['s', 't', 'a', 't', 'u', 's'], .status)]

/-- `nexti imm`, 0 <= imm <= 0xFFFFFF (30_encoding.md R67). -/
def nextiStmt (imm : Word) : Except ParseError (List Stmt) :=
  if imm.toNat ≤ 0xFFFFFF then .ok [.command (.nexti imm)] else .error (.immediateTooLarge imm)

/-- The operands as numbers, in order. -/
def parseWords : List (List Char) → Except ParseError (List Word)
  | [] => .ok []
  | t :: ts =>
    match parseWord t with
    | .error e => .error e
    | .ok w =>
      match parseWords ts with
      | .error e => .error e
      | .ok ws => .ok (w :: ws)

/-- A pseudo-instruction or `nexti` on its numbers (30_encoding.md R67, R68). -/
def wordStatement (word : List Char) (h : Head) (ws : List Word) : Except ParseError (List Stmt) :=
  match h, ws with
  | .nexti, [imm] => nextiStmt imm
  | .nextr, [v] => .ok (expandPseudo (.nextr v))
  | .observe3, [x, y, z] => .ok (expandPseudo (.observe3 x y z))
  | .setuid, [w0, w1, w2, w3] => .ok (expandPseudo (.setuid w0 w1 w2 w3))
  | .ldframe, [w0, w1, w2, w3, w4] => .ok (expandPseudo (.ldframe w0 w1 w2 w3 w4))
  | .rdframe, [] => .ok (expandPseudo .rdframe)
  | .status, [] => .ok (expandPseudo .status)
  | _, _ => .error (.wrongOperands word)

/-- A statement that begins with the word `word`, which names `h`. -/
def headStatement (cold : List Byte) (word : List Char) (h : Head) (ops : List (List Char)) :
    Except ParseError (List Stmt) :=
  match h, ops with
  | .wr, [name, value] =>
    match parseReg name, parseWord value with
    | .ok r, .ok w => .ok [.wr r w]
    | .error e, _ => .error e
    | .ok _, .error e => .error e
  | .rd, [name] =>
    match parseReg name with
    | .ok r => .ok [.rd r]
    | .error e => .error e
  | .reset, [['w', 'a', 'r', 'm']] => .ok [.reset .warm]
  | .reset, [['c', 'o', 'l', 'd']] => .ok [.reset (.cold cold)]
  | h, ops =>
    match parseWords ops with
    | .ok ws => wordStatement word h ws
    | .error e => .error e

/-- The statements one line stands for: none for a line that holds only blanks and a comment. `cold` is the flash contents
that a `reset cold` finds, which the text does not say (70_reset_and_hazards.md R196). -/
def parseLine (cold : List Byte) (line : List Char) : Except ParseError (List Stmt) :=
  let text := trimBlanks (stripComment line)
  let word := text.takeWhile (fun c => !isBlank c)
  let ops := operandsOf (text.dropWhile (fun c => !isBlank c))
  if text = [] then .ok []
  else
    match commandNames.lookup word with
    | some i => if ops = [] then .ok [.command i] else .error (.wrongOperands word)
    | none =>
      match headNames.lookup word with
      | some h => headStatement cold word h ops
      | none => .error (.unknownStatement word)

/-- The statements of a program, line after line. -/
def parseLines (cold : List Byte) : List (List Char) → Except ParseError (List Stmt)
  | [] => .ok []
  | l :: ls =>
    match parseLine cold l with
    | .error e => .error e
    | .ok a =>
      match parseLines cold ls with
      | .error e => .error e
      | .ok b => .ok (a ++ b)

/-- The events a program's text puts on the block, in order (30_encoding.md R67). -/
def programEvents (cold : List Byte) (text : List Char) : Except ParseError (List Event) :=
  match parseLines cold (splitAtChar '\n' text) with
  | .ok stmts => .ok (stmts.flatMap stmtEvents)
  | .error e => .error e

end Sys2Proof.Machine
end

