-- ==== Sys2Proof/Tests/Slice0.lean ====
section
/-! SUPPORT. Tests. Expected values come from 95_test_vectors.md (the vector's name stands beside each) or from the tables of
30_encoding.md R65 and 10_state.md R10. The witnesses of the statements' hypotheses are in Tests/Witnesses.lean. -/

namespace Sys2Proof.Tests

open Sys2Proof Sys2Proof.Machine

/-! ## Well-formedness -/

theorem test_illFormed_nexti_refused : (Instr.nexti 0x01000000#32).wellFormed = false := by decide

theorem test_illFormed_statement_refused : (Stmt.command (.nexti 0xFFFFFFFF#32)).wellFormed = false := by decide

theorem test_wellFormed_largest_immediate : (Instr.nexti 0x00FFFFFF#32).wellFormed = true := by decide

/-! ## Decoding: the words of 30_encoding.md R65, one per row, and illegal words (SV4) -/

theorem test_decode_nop : decode 0x00000000#32 = .ok .nop := by decide

theorem test_decode_setid : decode 0x01000000#32 = .ok .setid := by decide

theorem test_decode_next : decode 0x10000000#32 = .ok .next := by decide

/-- JV1 and JV7. -/
theorem test_decode_nexti :
    decode 0x11000064#32 = .ok (.nexti 100#32) ∧ decode 0x11FFFFFF#32 = .ok (.nexti 0xFFFFFF#32) := by decide

theorem test_decode_observe : decode 0x20000000#32 = .ok .observe := by decide

theorem test_decode_encode : decode 0x30000000#32 = .ok .encode := by decide

theorem test_decode_encrypt : decode 0x31000000#32 = .ok .encrypt := by decide

theorem test_decode_verify : decode 0x32000000#32 = .ok .verify := by decide

theorem test_decode_append : decode 0x40000000#32 = .ok .append := by decide

theorem test_decode_erase : decode 0x41000000#32 = .ok .erase := by decide

/-- SV4. -/
theorem test_decode_illegal :
    decode 0x02000000#32 = .error (.unassignedOpcode 0x02#8) ∧
      decode 0x20000001#32 = .error (.lowBitsSet 0x20#8 0x000001#24) ∧
      decode 0x42000000#32 = .error (.unassignedOpcode 0x42#8) := by decide

/-- The words of the table, written out, are what `encode` gives. -/
theorem test_encode_words :
    [Instr.nop, .setid, .next, .nexti 100#32, .observe, .encode, .encrypt, .verify, .append, .erase].map encode =
      [0x00000000#32, 0x01000000#32, 0x10000000#32, 0x11000064#32, 0x20000000#32, 0x30000000#32, 0x31000000#32,
        0x32000000#32, 0x40000000#32, 0x41000000#32] := by decide

theorem test_decodeTableWord : decodeTableWord 32 0x11000064 = some (.nexti 100#32) ∧ decodeTableWord 32 0x33000000 = none := by
  decide

/-- 20_memory.md R45, a read of RC and a write of `nexti 100` to CMD. -/
theorem test_port_tuples :
    requestBits (.read 0x01#8) = 0x00100000000#41 ∧ requestBits (.write 0x00#8 0x11000064#32) = 0x10011000064#41 ∧
      answerBits busError = 0x100000000#33 := by decide

/-! ## States the tests start from -/

/-- The checksum of the default instantiation, on "123456789" (95_test_vectors.md section 0). -/
theorem test_crc : crcCcittFalse [0x31#8, 0x32#8, 0x33#8, 0x34#8, 0x35#8, 0x36#8, 0x37#8, 0x38#8, 0x39#8] = 0x29B1#16 := by
  decide +kernel

/-- Frame A of 95_test_vectors.md section 0, plaintext. -/
def frameA : Frame :=
  ⟨#[0x18#8, 0x3B#8, 0x37#8, 0x02#8, 0x00#8, 0x01#8, 0x23#8, 0x45#8, 0x01#8, 0x01#8, 0x02#8, 0xBE#8, 0xEF#8, 0x00#8, 0x03#8,
      0x00#8, 0x05#8, 0x5A#8, 0x6B#8, 0x40#8], rfl⟩

/-- Frame A with its first byte 0x17 and the checksum of those bytes (CV6): a foreign protocol. -/
def frameForeign : Frame :=
  ⟨#[0x17#8, 0x3B#8, 0x37#8, 0x02#8, 0x00#8, 0x01#8, 0x23#8, 0x45#8, 0x01#8, 0x01#8, 0x02#8, 0xBE#8, 0xEF#8, 0x00#8, 0x03#8,
      0x00#8, 0x05#8, 0x5A#8, 0x6A#8, 0xFA#8], rfl⟩

/-- Frame A with byte 5 changed (CV5): a wrong checksum. -/
def frameBroken : Frame :=
  ⟨#[0x18#8, 0x3B#8, 0x37#8, 0x02#8, 0x00#8, 0x00#8, 0x23#8, 0x45#8, 0x01#8, 0x01#8, 0x02#8, 0xBE#8, 0xEF#8, 0x00#8, 0x03#8,
      0x00#8, 0x05#8, 0x5A#8, 0x6B#8, 0x40#8], rfl⟩

/-- The test key of 95_test_vectors.md section 0. -/
def keyT : Key :=
  ⟨#[0x00#8, 0x11#8, 0x22#8, 0x33#8, 0x44#8, 0x55#8, 0x66#8, 0x77#8, 0x88#8, 0x99#8, 0xAA#8, 0xBB#8, 0xCC#8, 0xDD#8, 0xEE#8,
      0xFF#8], rfl⟩

/-- The test cipher of 95_test_vectors.md section 0. -/
def encT (k : Key) (f : Frame) : Frame :=
  Vector.ofFn fun i => f[i] ^^^ k[i.val % 16]'(by omega)

/-- The default configuration with the test key, the test cipher and LOG_CAPACITY = 84 (95_test_vectors.md section 0). -/
def paramsT : Params :=
  { Config.params with
    key := keyT
    logCapacity := 84
    cipher := fun _ k => Function.Involutive.toPerm (encT k) (by intro f; ext i hi; simp [encT]) }

/-- After a COLD reset, with draws lined up: one timer sample and one flash result. -/
def start (timer : Word) (result : FlashResult) : State :=
  { initialState Config.params with
    env :=
      { timer := { lined := [timer], taken := 0 }, result := { lined := [result], taken := 0 }, torn := noDraws,
        commit := noDraws } }

/-- The same, with the standard identity set (SV1). -/
def withIdentity (s : State) : State :=
  { s with
    cod.uid := ⟨#[0x00010203#32, 0x04050607#32, 0x08090A0B#32, 0x0C0D0E0F#32], rfl⟩
    cod.tagId := 0x3B37#16
    cod.idValid := true }

/-- The frame buffer holding `f` with the tag `t`. -/
def withFrame (f : Frame) (t : FState) (s : State) : State :=
  { s with cod.frame := f, cod.fstate := t }

/-- The enciphered bytes of `f`, as received. -/
def received (f : Frame) (s : State) : State :=
  withFrame (Config.params.cipher 5 Config.params.key f) .raw s

/-- CURSOR at `c`. -/
def withCursor (c : Word) (s : State) : State :=
  { s with log.cursor := c }

/-- Motion state: the buffer filled with zero samples and WARM set, TICKS at `k`, and the sample operand `a`. -/
def warmed (k : Byte) (a : Axes Half) (s : State) : State :=
  { s with mot.warm := true, mot.ticks := k, mot.sample := a }

/-- A sample far from the mean. -/
def jolt : Axes Half := ⟨0#16, 0#16, 100#16⟩

/-- The sample at rest. -/
def still : Axes Half := ⟨0#16, 0#16, 0#16⟩

/-- Frame A verified, nothing logged. -/
def verifiedA (result : FlashResult) : State :=
  withFrame frameA .verified (start 0x00020000#32 result)

/-- The entry of LV1. -/
def entryA : List Byte :=
  [0x01#8, 0x1C#8, 0x00#8, 0x02#8, 0x00#8, 0x00#8] ++ frameA.toList ++ [0xB0#8, 0x56#8]

/-- One entry in the log and another frame verified (LV1, then receive). -/
def logged : State :=
  { verifiedA .ok with log.cursor := 28#32, log.flash := Memory.ofBytes 0 entryA }

/-! ## One step of each command, on the spec's vectors -/

/-- R150, and the step through the port: CMD holds the word and the write is answered. -/
theorem test_nop_step :
    step ((start 0#32 .ok).withFetchWord 32 0) =
      .next { start 0#32 .ok with port := { inbox := [], status := .answered (goodAnswer 0#32) } } := rfl

/-- SV1. -/
theorem test_setid :
    (deriveIdentity Config.params { withIdentity (start 0#32 .ok) with cod.idValid := false, cod.tagId := 0#16 }).sys.res =
      0x00003B37#32 := by decide +kernel

/-- SV2. -/
theorem test_setid_twice :
    (deriveIdentity Config.params (withIdentity (start 0#32 .ok))).sys =
      { cmd := 0#32, rc := 8#4, res := 0x00003B37#32 } := by decide

/-- JV4 row 5's form, on the reset state of JV1: range 0xFFFFFFFF returns the mix itself. -/
theorem test_next :
    (drawJitter Config.params 0xFFFFFFFF#32 (start 0#32 .ok)).sys.res = 0x7788AF5E#32 := by decide

/-- JV5. -/
theorem test_next_range_zero :
    exec .next (start 0#32 .ok) = .next { start 0#32 .ok with sys := { cmd := 0#32, rc := 5#4, res := 0#32 } } := rfl

/-- JV2. -/
theorem test_nexti :
    (drawJitter Config.params 100#32 (start 0x000003E8#32 .ok)).sys.res = 14#32 ∧
      (drawJitter Config.params 100#32 (start 0x000003E8#32 .ok)).jit =
        { arg := 0#32, v1 := 0x7714F838#32, v2 := 0x009C5766#32, seed := 0x000003E8#32 } := by decide

/-- JV8, the largest result. -/
theorem test_mwc : mwc 36969 0xFFFFFFFF#32 = 0x90696F96#32 := by decide

/-- MV1 row 1, with a negative sample: SUM is two's complement. -/
theorem test_observe_warmup :
    (observeMot Config.params { (start 0#32 .ok).mot with sample := ⟨0#16, 0xFFFF#16, 64#16⟩ }).sum =
        ⟨0#32, 0xFFFFFFFF#32, 64#32⟩ ∧
      (observeMot Config.params { (start 0#32 .ok).mot with sample := ⟨0#16, 0xFFFF#16, 64#16⟩ }).warm = false := by
  decide

/-- MV4: on a baseline of 64, a step of -4 does not qualify and a step of -5 does (truncation toward zero). -/
theorem test_observe_threshold :
    qualifies Config.params ⟨0#32, 0#32, 636#32⟩ ⟨0#16, 0#16, 60#16⟩ = false ∧
      qualifies Config.params ⟨0#32, 0#32, 635#32⟩ ⟨0#16, 0#16, 59#16⟩ = true := by decide

/-- CV2: every field but zero. -/
theorem test_encode :
    (encodeFrame paramsT
        { withIdentity (start 0x00012345#32 .ok) with
          mot.ticks := 20#8, cod.txLevel := 1#1, cod.txSeq := 0x0102#16, cod.battery := 0x5A#8, cod.peerLast := 0xBEEF#16,
          cod.peerLow := 3#16, cod.peerHigh := 5#16 }).cod.frame = frameA := by decide +kernel

/-- CV11. -/
theorem test_encode_without_identity : (encodeFrame paramsT (start 0#32 .ok)).sys.rc = 7#4 := by decide

/-- CV3, the first and the last word. -/
theorem test_encrypt :
    readReg paramsT (.f 0) (encryptFrame paramsT (withFrame frameA .built (start 0#32 .ok))) = 0x182A1531#32 ∧
      readReg paramsT (.f 4) (encryptFrame paramsT (withFrame frameA .built (start 0#32 .ok))) = 0x054B4973#32 := by decide

/-- CV4. -/
theorem test_verify :
    (verifyFrame paramsT (withFrame (encT keyT frameA) .raw (start 0#32 .ok))).sys.res = 0x00003B37#32 ∧
      (verifyFrame paramsT (withFrame (encT keyT frameA) .raw (start 0#32 .ok))).cod.peerHigh = 1#16 := by decide +kernel

/-- CV5 and CV6: the two reasons. -/
theorem test_verify_rejects :
    (verifyFrame paramsT (withFrame (encT keyT frameBroken) .raw (start 0#32 .ok))).sys.res = 1#32 ∧
      (verifyFrame paramsT (withFrame (encT keyT frameForeign) .raw (start 0#32 .ok))).sys.res = 2#32 := by decide +kernel

/-- LV1. -/
theorem test_append :
    memRead paramsT (append paramsT (verifiedA .ok)) 0 28 = some entryA ∧
      (append paramsT (verifiedA .ok)).log.cursor = 28#32 := by decide +kernel

/-- LV5, the code and the cursor. -/
theorem test_append_write_fails :
    (append paramsT { verifiedA .fail with env.torn := { lined := List.replicate 28 .old, taken := 0 } }).sys =
      { cmd := 0#32, rc := 3#4, res := 0#32 } := by decide

/-- LV6. -/
theorem test_erase :
    memRead paramsT (eraseLog paramsT logged) 0 28 = some (List.replicate 28 0xFF#8) ∧
      (eraseLog paramsT logged).log.cursor = 0#32 := by decide

/-- LV9, the code. -/
theorem test_erase_fails : (eraseLog Config.params (start 0#32 .fail)).sys = { cmd := 0#32, rc := 4#4, res := 0#32 } := rfl

/-- SV4: an illegal word is stored and returns ERR_ILLEGAL. -/
theorem test_illegal_word_step :
    step ((start 0#32 .ok).withFetchWord 32 0x02000000) =
      .next
        { start 0#32 .ok with
          sys := { cmd := 0x02000000#32, rc := 10#4, res := 0#32 }
          port := { inbox := [], status := .answered (goodAnswer 0#32) } } := rfl

/-- LV7, last row but one: a reset during the CURSOR write, the new value surviving. -/
theorem test_reset_in_cursor_write :
    (resetMove Config.params .warm
        { (start 0#32 .ok) with
          log.phase := .aCommit, env.commit := { lined := [.new], taken := 0 } }).log.cursor = 28#32 := by decide

/-- 30_encoding.md R68, `observe3`. -/
theorem test_observe3 :
    (expandPseudo (.observe3 1#32 2#32 3#32)).flatMap stmtEvents =
      [.request (.write 0x05#8 1#32), .request (.write 0x06#8 2#32), .request (.write 0x07#8 3#32),
        .request (.write 0x00#8 0x20000000#32)] := by decide

/-- 30_encoding.md R67: a comment, a register name in small letters, a hexadecimal number (`wr sz, 0x44 ;a`). -/
theorem test_parse_wr :
    parseLine [] ['w', 'r', ' ', 's', 'z', ',', ' ', '0', 'x', '4', '4', ' ', ';', 'a'] =
      .ok [.wr .sz 0x44#32] := by decide

/-- P2 of 96_test_programs.md (`nexti 100`), and an immediate one too large. -/
theorem test_parse_nexti :
    parseLine [] ['n', 'e', 'x', 't', 'i', ' ', '1', '0', '0'] = .ok [.command (.nexti 100#32)] ∧
      parseLine [] ['n', 'e', 'x', 't', 'i', ' ', '1', '6', '7', '7', '7', '2', '1', '6'] =
        .error (.immediateTooLarge 0x1000000#32) := by decide

/-- The model's choice (log entry 11): a number has no sign. -/
theorem test_parse_minus_sign :
    parseLine [] ['w', 'r', ' ', 's', 'z', ',', '-', '4'] = .error (.badNumber ['-', '4']) := by decide

end Sys2Proof.Tests
end

