-- ==== Sys2Proof/Tests/Witnesses.lean ====
section
/-! SUPPORT. Witnesses: for every statement of Certificates/Slice0/Obligations.lean that has hypotheses, a state and operands that
meet them all together, one theorem per clause where the clauses exclude each other. -/

namespace Sys2Proof.Tests

open Sys2Proof Sys2Proof.Machine

/-! ## The invariant holds in the states the witnesses use -/

/-- The region of `Config.params` has room for three entries (log entry 1). -/
theorem capacity_ge : 84 ≤ Config.params.logCapacity.val :=
  Nat.le_add_right 84 _

/-- A number of bytes up to three entries fits. -/
theorem fits {n : Nat} (h : n ≤ 84) : n ≤ Config.params.logCapacity.val :=
  le_trans h capacity_ge

/-- The offset after the last whole slot of the region. -/
def fullCursor : Word := BitVec.ofNat 32 (28 * (Config.params.logCapacity.val / 28))

theorem fullCursor_toNat : fullCursor.toNat = 28 * (Config.params.logCapacity.val / 28) := by
  have := Config.params.logCapacity.isLt
  simp only [fullCursor, BitVec.toNat_ofNat]
  omega

theorem goodFrame_frameA : goodFrame Config.params frameA :=
  ⟨by decide +kernel, rfl⟩

theorem logEntry_entryA : logEntry Config.params 0x00020000#32 frameA = entryA := by decide +kernel

theorem motionOk_start (t : Word) (r : FlashResult) : MotionOk Config.params (start t r).mot :=
  ⟨rfl, rfl, rfl, rfl, by show 0 < 10; decide, Nat.zero_le _, fun _ => rfl⟩

/-- The buffer full of zero samples and TICKS at its greatest. -/
theorem motionOk_warmed (a : Axes Half) : MotionOk Config.params (warmed 20#8 a (start 0#32 .ok)).mot :=
  ⟨rfl, rfl, rfl, rfl, by show 0 < 10; decide, by show 20 ≤ 20; decide, fun h => (by cases h)⟩

theorem logOk_empty (t : Word) (r : FlashResult) : LogOk Config.params (start t r).log where
  aligned := rfl
  inside := Nat.zero_le _
  flashWf := List.Pairwise.nil
  flashInside := fun c h => (by cases h)
  entries := fun k h => by
    have : 28 * (k + 1) ≤ 0 := h
    omega
  phase := trivial

theorem inv_start (t : Word) (r : FlashResult) : Inv Config.params (start t r) where
  rc := Nat.zero_le _
  motion := motionOk_start t r
  identity := ⟨fun _ => rfl, fun h => (by cases h)⟩
  frameTag := ⟨fun h => (by cases h), fun h => (by cases h)⟩
  log := logOk_empty t r
  phaseIdle := fun _ => rfl

theorem inv_verifiedA (r : FlashResult) : Inv Config.params (verifiedA r) where
  rc := Nat.zero_le _
  motion := motionOk_start 0x00020000#32 r
  identity := ⟨fun _ => rfl, fun h => (by cases h)⟩
  frameTag := ⟨fun h => (by cases h), fun _ => goodFrame_frameA⟩
  log := logOk_empty 0x00020000#32 r
  phaseIdle := fun _ => rfl

theorem slotOk_logged : slotOk Config.params logged.log.flash 0 :=
  ⟨entryA, by decide +kernel, 0x00020000#32, frameA, logEntry_entryA.symm, goodFrame_frameA⟩

theorem flashInside_logged : ∀ c ∈ logged.log.flash, c.1 < Config.params.logCapacity.val := fun c h => by
  have h28 : c.1 < 0 + 28 := (Memory.mem_ofBytes h).2
  have := capacity_ge
  omega

theorem inv_logged : Inv Config.params logged where
  rc := Nat.zero_le _
  motion := motionOk_start 0x00020000#32 .ok
  identity := ⟨fun _ => rfl, fun h => (by cases h)⟩
  frameTag := ⟨fun h => (by cases h), fun _ => goodFrame_frameA⟩
  log :=
    { aligned := rfl
      inside := fits (n := 28) (by decide)
      flashWf := Memory.wf_ofBytes entryA 0
      flashInside := flashInside_logged
      entries := fun k h => by
        have h28 : 28 * (k + 1) ≤ 28 := h
        have : k = 0 := by omega
        subst this
        exact slotOk_logged
      phase := trivial }
  phaseIdle := fun _ => rfl

/-- An APPEND cut off on its cursor update: the entry stands at offset 0 and CURSOR is still 0 (LV7). -/
def midCommit (c : Commit) : State :=
  { logged with
    cod.fstate := .empty
    log.cursor := 0#32
    log.phase := .aCommit
    port.status := .outstanding
    env.commit := { lined := [c], taken := 0 } }

theorem inv_midCommit (c : Commit) : Inv Config.params (midCommit c) where
  rc := Nat.zero_le _
  motion := motionOk_start 0x00020000#32 .ok
  identity := ⟨fun _ => rfl, fun h => (by cases h)⟩
  frameTag := ⟨fun h => (by cases h), fun h => (by cases h)⟩
  log :=
    { aligned := rfl
      inside := Nat.zero_le _
      flashWf := Memory.wf_ofBytes entryA 0
      flashInside := flashInside_logged
      entries := fun k h => by
        have : 28 * (k + 1) ≤ 0 := h
        omega
      phase := ⟨slotOk_logged, fits (n := 28) (by decide)⟩ }
  phaseIdle := fun h => absurd rfl h

theorem holdsEntries_logged : holdsEntries Config.params logged [entryA] := by
  refine ⟨rfl, fun i h => ?_⟩
  have : i = 0 := by
    simp at h
    exact h
  subst this
  show memRead Config.params logged 0 28 = some entryA
  exact (if_pos (fits (n := 28) (by decide))).trans (by decide +kernel)

/-- With a buffer full of zero samples, samples at rest are quiet (MV5). -/
theorem quietRun_still (n : Nat) (s : State) (hw : s.mot.warm = true) (hb : s.mot.buf = List.replicate 10 still)
    (hs : s.mot.sum = ⟨0#32, 0#32, 0#32⟩) : quietRun Config.params (List.replicate n still) s := by
  induction n generalizing s with
  | zero => trivial
  | succ n ih =>
    have ho : oldSample (withSample still s).mot = still := by
      show (s.mot.buf.getD _ _) = still
      rw [hb, List.getD_eq_getElem?_getD, List.getElem?_replicate]
      split <;> rfl
    have hsum : slideSums (withSample still s).mot = ⟨0#32, 0#32, 0#32⟩ := by
      unfold slideSums
      rw [ho]
      show Axes.mk (slideSum s.mot.sum.x 0#16 0#16) (slideSum s.mot.sum.y 0#16 0#16) (slideSum s.mot.sum.z 0#16 0#16) = _
      rw [hs]
      decide
    refine ⟨hw, ?_, fun t ht => ?_⟩
    · show (s.mot.warm && qualifies Config.params (slideSums (withSample still s).mot) still) = false
      rw [hsum, hw]
      decide
    · cases ht
      refine ih _ ?_ ?_ hsum
      · show (s.mot.warm || _) = true
        rw [hw]
        rfl
      · show s.mot.buf.set _ still = _
        rw [hb]
        exact List.set_replicate_self

/-! ## Witnesses: states and operands that meet the hypotheses of each statement -/

theorem witness_DecodeEncodeAgree : (Instr.nexti 0xFFFFFF#32).wellFormed = true ∧ Instr.erase.wellFormed = true := by decide

theorem witness_StepRunsDecodedCommand :
    (start 0#32 .ok).port.status ≠ .outstanding ∧ decode 0x11FFFFFF#32 = .ok (.nexti 0xFFFFFF#32) ∧
      exec (.nexti 0xFFFFFF#32) (setCmd 0x11FFFFFF#32 { start 0#32 .ok with port.inbox := [.reset .warm] }) =
        .next (drawJitter Config.params 0xFFFFFF#32 (setCmd 0x11FFFFFF#32 { start 0#32 .ok with port.inbox := [.reset .warm] })) :=
  ⟨by decide, by decide, rfl⟩

theorem witness_StepRunsDecodedCommand_illegal :
    (start 0#32 .ok).port.status ≠ .outstanding ∧ decode 0x10FFFFFF#32 = .error (.lowBitsSet 0x10#8 0xFFFFFF#24) := by decide

theorem witness_FetchWordIsRunNext :
    decode 0x00000000#32 = .ok .nop ∧
      exec .nop (setCmd 0x00000000#32 { start 0#32 .ok with port := { inbox := [], status := .quiet } }) =
        .next (ret .ok 0#32 (setCmd 0x00000000#32 { start 0#32 .ok with port := { inbox := [], status := .quiet } })) :=
  ⟨by decide, rfl⟩

/-- Opcodes next to assigned ones and at the end of the range. -/
theorem witness_IllegalWordsOnlyReturn_opcode :
    (start 0#32 .ok).port.status ≠ .outstanding ∧
      (0x02000000#32).toNat / 2 ^ 24 ∉ [0x00, 0x01, 0x10, 0x11, 0x20, 0x30, 0x31, 0x32, 0x40, 0x41] ∧
      (0x12000000#32).toNat / 2 ^ 24 ∉ [0x00, 0x01, 0x10, 0x11, 0x20, 0x30, 0x31, 0x32, 0x40, 0x41] ∧
      (0xFFFFFFFF#32).toNat / 2 ^ 24 ∉ [0x00, 0x01, 0x10, 0x11, 0x20, 0x30, 0x31, 0x32, 0x40, 0x41] := by decide

/-- The smallest and the largest low part. -/
theorem witness_IllegalWordsOnlyReturn_low :
    (start 0#32 .ok).port.status ≠ .outstanding ∧
      (0x00000001#32).toNat / 2 ^ 24 ≠ 0x11 ∧ (0x00000001#32).toNat % 2 ^ 24 ≠ 0 ∧
      (0x10FFFFFF#32).toNat / 2 ^ 24 ≠ 0x11 ∧ (0x10FFFFFF#32).toNat % 2 ^ 24 ≠ 0 ∧
      (0x41FFFFFF#32).toNat / 2 ^ 24 ≠ 0x11 ∧ (0x41FFFFFF#32).toNat % 2 ^ 24 ≠ 0 := by decide

theorem witness_StepStopsOnlyOnSecondRequest :
    (midCommit .new).port.status = .outstanding ∧ (∀ k, Event.request (.read 0#8) ≠ .reset k) ∧
      step (pending (.request (.read 0#8)) [] (midCommit .new)) = .fault .requestWhileOutstanding :=
  ⟨rfl, fun _ h => (by cases h), rfl⟩

theorem witness_NothingChangesWithoutEvents : (start 0#32 .ok).port.inbox = [] := rfl

theorem witness_ReadsAnswerWidenedRegisters :
    (start 0#32 .ok).port.status ≠ .outstanding ∧ regOfNumber 0x00#8 = some .cmd ∧ regOfNumber 0x27#8 = some .seed := by decide

/-- The ends of each range of 20_memory.md R43. -/
theorem witness_UnimplementedNumbersAnswerError :
    (start 0#32 .ok).port.status ≠ .outstanding ∧
      ∀ rn ∈ [0x13#8, 0x19#8, 0x1B#8, 0x1E#8, 0x1F#8, 0x28#8, 0xFF#8],
        rn.toNat = 0x13 ∨ (0x19 ≤ rn.toNat ∧ rn.toNat ≤ 0x1B) ∨ rn.toNat = 0x1E ∨ rn.toNat = 0x1F ∨ 0x28 ≤ rn.toNat := by
  decide

theorem witness_RefusedWritesChangeNothing_readOnly :
    (start 0#32 .ok).port.status ≠ .outstanding ∧
      (0x01#8).toNat ∈ [0x01, 0x02, 0x03, 0x0C, 0x1C, 0x1D, 0x20, 0x21, 0x22, 0x23, 0x24, 0x25, 0x26, 0x27] ∧
      (0x27#8).toNat ∈ [0x01, 0x02, 0x03, 0x0C, 0x1C, 0x1D, 0x20, 0x21, 0x22, 0x23, 0x24, 0x25, 0x26, 0x27] := by decide

theorem witness_RefusedWritesChangeNothing_uid :
    (withIdentity (start 0#32 .ok)).port.status ≠ .outstanding ∧ (withIdentity (start 0#32 .ok)).cod.idValid = true ∧
      ∀ rn ∈ [0x08#8, 0x0B#8], 0x08 ≤ rn.toNat ∧ rn.toNat ≤ 0x0B := by decide

theorem witness_WritesStoreLowBits :
    (start 0#32 .ok).port.status ≠ .outstanding ∧ (start 0#32 .ok).cod.idValid = false := by decide

theorem witness_FrameWindow :
    (withFrame frameA .built (start 0#32 .ok)).port.status ≠ .outstanding ∧ (19 : Fin 20).val / 4 ≠ (0 : Fin 5).val := by decide

/-- A WARM reset, and a cold one, with CURSOR = 0 after it. -/
theorem witness_StatusBits_reset :
    step (pending (.reset .warm) [] (verifiedA .ok)) =
        .next (resetMove Config.params .warm { verifiedA .ok with port.inbox := [] }) ∧
      (resetMove Config.params .warm { verifiedA .ok with port.inbox := [] }).log.cursor = 0#32 ∧
      step (pending (.reset (.cold [])) [] logged) =
        .next (resetMove Config.params (.cold []) { logged with port.inbox := [] }) ∧
      (resetMove Config.params (.cold []) { logged with port.inbox := [] }).log.cursor = 0#32 ∧
      entryBytes ≤ Config.params.logCapacity.val :=
  ⟨rfl, rfl, rfl, rfl, fits (n := 28) (by decide)⟩

theorem witness_StatusBits_write : (verifiedA .ok).port.status ≠ .outstanding := by decide

theorem witness_LoadFrameLoadsFrame : (withFrame frameA .built (start 0#32 .ok)).port.status ≠ .outstanding := by decide

theorem witness_SetidDerivesIdentity :
    (start 0#32 .ok).cod.idValid = false ∧ (withIdentity (start 0#32 .ok)).cod.idValid = true := by decide

theorem witness_IdentityIsFixed :
    step (pending (.request (.write 0x08#8 0x11111111#32)) [] (withIdentity (start 0#32 .ok))) =
        .next (answeredWith busError [] (withIdentity (start 0#32 .ok))) ∧
      (withIdentity (start 0#32 .ok)).cod.idValid = true ∧
      ∀ k, Event.request (.write 0x08#8 0x11111111#32) ≠ .reset k :=
  ⟨rfl, rfl, fun _ h => (by cases h)⟩

theorem witness_IdentityIsFixed_setid :
    exec .setid (start 0#32 .ok) = .next (deriveIdentity Config.params (start 0#32 .ok)) ∧
      (deriveIdentity Config.params (start 0#32 .ok)).sys.rc = 0#4 :=
  ⟨rfl, rfl⟩

theorem witness_IdentityIsFixed_reset :
    step (pending (.reset .warm) [] (withIdentity (start 0#32 .ok))) = .next (start 0#32 .ok) := rfl

theorem witness_MwcNeverWraps : 65535 ≤ 65535 := Nat.le_refl _

/-- Range 0, the smallest range and the largest. -/
theorem witness_NextDrawsWithArg :
    (start 0#32 .ok).jit.arg = 0#32 ∧ { start 0#32 .ok with jit.arg := 1#32 }.jit.arg ≠ 0#32 ∧
      { start 0#32 .ok with jit.arg := 0xFFFFFFFF#32 }.jit.arg ≠ 0#32 := by decide

theorem witness_NextiDrawsWithImmediate :
    (0#32).toNat ≤ 0xFFFFFF ∧ (0xFFFFFF#32).toNat ≤ 0xFFFFFF ∧ 0#32 = 0#32 ∧ 1#32 ≠ 0#32 ∧ 0xFFFFFF#32 ≠ 0#32 := by decide

theorem witness_JitterBelowRange :
    exec .next { start 0#32 .ok with jit.arg := 1#32 } =
        .next (drawJitter Config.params 1#32 { start 0#32 .ok with jit.arg := 1#32 }) ∧
      (drawJitter Config.params 1#32 { start 0#32 .ok with jit.arg := 1#32 }).sys.rc = 0#4 ∧
      exec (.nexti 100#32) (start 0#32 .ok) = .next (drawJitter Config.params 100#32 (start 0#32 .ok)) ∧
      (drawJitter Config.params 100#32 (start 0#32 .ok)).sys.rc = 0#4 :=
  ⟨rfl, rfl, rfl, rfl⟩

/-- Two states that differ in everything else. -/
theorem witness_JitterDependsOnWordsAndTimer :
    (start 7#32 .ok).jit = (withIdentity (start 7#32 .fail)).jit ∧
      timerSample (start 7#32 .ok) = timerSample (withIdentity (start 7#32 .fail)) ∧
      exec (.nexti 100#32) (start 7#32 .ok) = .next (drawJitter Config.params 100#32 (start 7#32 .ok)) ∧
      exec (.nexti 100#32) (withIdentity (start 7#32 .fail)) =
        .next (drawJitter Config.params 100#32 (withIdentity (start 7#32 .fail))) :=
  ⟨rfl, rfl, rfl, rfl⟩

/-- The invariant, in warm-up; and warm, with a sample that qualifies and one that does not, on the edge (dev 4 and 3). -/
theorem witness_ObserveFollowsTheFilter :
    MotionOk Config.params (start 0#32 .ok).mot ∧ (start 0#32 .ok).mot.warm = false ∧
      MotionOk Config.params (warmed 20#8 ⟨0#16, 0#16, 4#16⟩ (start 0#32 .ok)).mot ∧
      Config.params.threshold <
        ((observeMot Config.params (warmed 20#8 ⟨0#16, 0#16, 4#16⟩ (start 0#32 .ok)).mot).sum.z.toInt.tdiv
            (Config.params.depth : Int) - (4#16).toInt).natAbs ∧
      MotionOk Config.params (warmed 20#8 ⟨0#16, 0#16, 3#16⟩ (start 0#32 .ok)).mot ∧
      ¬ Config.params.threshold <
        ((observeMot Config.params (warmed 20#8 ⟨0#16, 0#16, 3#16⟩ (start 0#32 .ok)).mot).sum.z.toInt.tdiv
            (Config.params.depth : Int) - (3#16).toInt).natAbs :=
  ⟨motionOk_start _ _, rfl, motionOk_warmed _, by decide, motionOk_warmed _, by decide⟩

/-- Nine samples, and ten. -/
theorem witness_WarmUpNeverClassifies :
    (start 0#32 .ok).mot.warm = false ∧ (start 0#32 .ok).mot.pos = 0#8 ∧
      (List.replicate 9 jolt).length ≤ Config.params.depth ∧ (List.replicate 10 jolt).length ≤ Config.params.depth := by decide

/-- A small trigger on a full buffer of samples at rest, and nothing after it. -/
theorem witness_DecayLaw :
    rearms Config.params (withSample ⟨0#16, 0#16, 4#16⟩ (warmed 0#8 still (start 0#32 .ok))) = true ∧
      exec .observe (withSample ⟨0#16, 0#16, 4#16⟩ (warmed 0#8 still (start 0#32 .ok))) =
        .next (observe Config.params (withSample ⟨0#16, 0#16, 4#16⟩ (warmed 0#8 still (start 0#32 .ok)))) ∧
      quietRun Config.params [still]
        (observe Config.params (withSample ⟨0#16, 0#16, 4#16⟩ (warmed 0#8 still (start 0#32 .ok)))) ∧
      [still].length ≤ Config.params.maxTicks :=
  ⟨by decide, rfl, ⟨rfl, by decide, fun _ _ => trivial⟩, by decide⟩

/-- Twenty samples at rest from TICKS = 20; and any from TICKS = 0. -/
theorem witness_StillnessLaw :
    quietRun Config.params (List.replicate 20 still) (warmed 20#8 still (start 0#32 .ok)) ∧
      (warmed 20#8 still (start 0#32 .ok)).mot.ticks.toNat ≤ Config.params.maxTicks ∧
      Config.params.maxTicks ≤ (List.replicate 20 still).length ∧
      quietRun Config.params (List.replicate 5 still) (warmed 0#8 still (start 0#32 .ok)) ∧
      (warmed 0#8 still (start 0#32 .ok)).mot.ticks = 0#8 :=
  ⟨quietRun_still 20 _ rfl rfl rfl, by decide, by decide, quietRun_still 5 _ rfl rfl rfl, rfl⟩

theorem witness_MotionStateIsOwned :
    step (pending (.request (.write 0x05#8 7#32)) [] (start 0#32 .ok)) =
        .next (answeredWith (goodAnswer 0#32) [] { start 0#32 .ok with mot.sample.x := 7#16 }) ∧
      (∀ k, Event.request (.write 0x05#8 7#32) ≠ .reset k) ∧
      commandOf (.write 0x05#8 7#32) ≠ some .observe :=
  ⟨rfl, fun _ h => (by cases h), by decide⟩

theorem witness_EncodeBuildsFrame :
    (start 0#32 .ok).cod.idValid = false ∧ (withIdentity (start 0#32 .ok)).cod.idValid = true := by decide

theorem witness_EncryptEnciphersBuiltFrame :
    (start 0#32 .ok).cod.fstate ≠ .built ∧ (withFrame frameA .built (start 0#32 .ok)).cod.fstate = .built := by decide

theorem decipher_received (f : Frame) (s : State) :
    (Config.params.cipher 5 Config.params.key).symm (received f s).cod.frame = f :=
  (Config.params.cipher 5 Config.params.key).symm_apply_apply f

theorem witness_VerifyDecidesAndAccounts_refused : (start 0#32 .ok).cod.fstate ≠ .raw := by decide

theorem witness_VerifyDecidesAndAccounts_checksum :
    frameBroken = (Config.params.cipher 5 Config.params.key).symm (received frameBroken (start 0#32 .ok)).cod.frame ∧
      (received frameBroken (start 0#32 .ok)).cod.fstate = .raw ∧
      (Config.params.crc16 (frameBroken.toList.take 18)).toNat ≠ frameBroken[18].toNat * 256 + frameBroken[19].toNat :=
  ⟨(decipher_received _ _).symm, rfl, by decide +kernel⟩

theorem witness_VerifyDecidesAndAccounts_protocol :
    frameForeign = (Config.params.cipher 5 Config.params.key).symm (received frameForeign (start 0#32 .ok)).cod.frame ∧
      (received frameForeign (start 0#32 .ok)).cod.fstate = .raw ∧
      (Config.params.crc16 (frameForeign.toList.take 18)).toNat = frameForeign[18].toNat * 256 + frameForeign[19].toNat ∧
      frameForeign[0] ≠ Config.params.protoBeacontracker :=
  ⟨(decipher_received _ _).symm, rfl, by decide +kernel, by decide⟩

theorem witness_VerifyDecidesAndAccounts_accepted :
    frameA = (Config.params.cipher 5 Config.params.key).symm (received frameA (start 0#32 .ok)).cod.frame ∧
      (received frameA (start 0#32 .ok)).cod.fstate = .raw ∧
      (Config.params.crc16 (frameA.toList.take 18)).toNat = frameA[18].toNat * 256 + frameA[19].toNat ∧
      frameA[0] = Config.params.protoBeacontracker :=
  ⟨(decipher_received _ _).symm, rfl, by decide +kernel, rfl⟩

theorem witness_EncodeEncryptVerifyRoundTrip :
    (withIdentity (start 0#32 .ok)).cod.idValid = true ∧
      (encryptFrame Config.params (encodeFrame Config.params (withIdentity (start 0#32 .ok)))).cod.fstate = .raw :=
  ⟨rfl, rfl⟩

/-- A cursor off the grid by one, a region with no slot left, and the tag. -/
theorem witness_AppendRefusals :
    (start 0#32 .ok).cod.fstate ≠ .verified ∧
      (withCursor 27#32 (verifiedA .ok)).cod.fstate = .verified ∧
      (withCursor 27#32 (verifiedA .ok)).log.cursor.toNat % 28 ≠ 0 ∧
      (withCursor fullCursor (verifiedA .ok)).log.cursor.toNat % 28 = 0 ∧
      (withCursor fullCursor (verifiedA .ok)).log.cursor.toNat + 28 > Config.params.logCapacity.val := by
  have h : (withCursor fullCursor (verifiedA .ok)).log.cursor.toNat = _ := fullCursor_toNat
  refine ⟨by decide, by decide, by decide, ?_, ?_⟩ <;> rw [h] <;> omega

/-- An entry at the last whole slot, the driver's `ok` and its `fail`. -/
theorem witness_AppendWritesOneEntry :
    ∀ r : FlashResult,
      (withCursor (fullCursor - 28#32) (verifiedA r)).cod.fstate = .verified ∧
        (withCursor (fullCursor - 28#32) (verifiedA r)).log.cursor.toNat % 28 = 0 ∧
        (withCursor (fullCursor - 28#32) (verifiedA r)).log.cursor.toNat + 28 ≤ Config.params.logCapacity.val ∧
        flashResult (withCursor (fullCursor - 28#32) (verifiedA r)) = r := by
  intro r
  have h : (withCursor (fullCursor - 28#32) (verifiedA r)).log.cursor.toNat = fullCursor.toNat - 28 := by
    have := fullCursor_toNat
    have := capacity_ge
    show (fullCursor - 28#32).toNat = _
    rw [BitVec.toNat_sub_of_le (by simp only [BitVec.le_def, BitVec.toNat_ofNat]; omega)]
    rfl
  have := fullCursor_toNat
  have := capacity_ge
  refine ⟨rfl, ?_, ?_, rfl⟩ <;> rw [h] <;> omega

theorem witness_EraseRewindsAndErases :
    flashResult (start 0#32 .ok) = .ok ∧ flashResult (start 0#32 .fail) = .fail := ⟨rfl, rfl⟩

theorem witness_ResetInsideAppend :
    ∀ r : FlashResult,
      (withCursor 56#32 (verifiedA r)).port.status ≠ .outstanding ∧
        (withCursor 56#32 (verifiedA r)).log.phase = .idle ∧
        (withCursor 56#32 (verifiedA r)).cod.fstate = .verified ∧
        (withCursor 56#32 (verifiedA r)).log.cursor.toNat % 28 = 0 ∧
        (withCursor 56#32 (verifiedA r)).log.cursor.toNat + 28 ≤ Config.params.logCapacity.val ∧
        flashResult (withCursor 56#32 (verifiedA r)) = r :=
  fun _ => ⟨fun h => (by cases h), rfl, rfl, show (56#32).toNat % 28 = 0 by decide, fits (n := 84) (by decide), rfl⟩

theorem witness_ResetInsideErase : logged.port.status ≠ .outstanding ∧ logged.log.phase = .idle := by decide

theorem witness_ResetInsideOtherLeavesNoTrace :
    logged.port.status ≠ .outstanding ∧ logged.log.phase = .idle ∧ commandOf (.write 0x00#8 0x32000000#32) = some .verify ∧
      commandOf (.write 0x00#8 0x32000000#32) ≠ some .append ∧ commandOf (.write 0x00#8 0x32000000#32) ≠ some .erase := by
  decide

theorem witness_CursorAdvancesByWholeEntries :
    Inv Config.params (midCommit .new) ∧
      step (pending (.reset .warm) [] (midCommit .new)) = .next (resetMove Config.params .warm (midCommit .new)) ∧
      keepsLog (.reset .warm) = true ∧ (midCommit .new).log.phase ≠ .eCommit :=
  ⟨inv_midCommit _, rfl, rfl, by decide⟩

/-- A WARM reset and a read after it always have a next state. -/
theorem run_reset_read {u : State} {rn : Byte} (h : u.port.inbox = [.reset .warm, .request (.read rn)]) :
    ∃ t, Host.Core.run Sys2Proof.core 2 u = .next t := by
  have h1 : step u = .next (resetMove Config.params .warm { u with port.inbox := [.request (.read rn)] }) := by
    rcases stepWith_cases Config.params exec u with ⟨e, _⟩ | ⟨e, rest, hi, hs⟩
    · rw [h] at e
      cases e
    · rw [h] at hi
      cases hi
      exact hs
  have hp := (resetMove_warm Config.params { u with port.inbox := [.request (.read rn)] }).2
  generalize resetMove Config.params .warm { u with port.inbox := [.request (.read rn)] } = v at h1 hp
  have h2 : step v =
      .next (giveAnswer (readAnswer Config.params rn { v with port.inbox := [] }) { v with port.inbox := [] }) := by
    rcases stepWith_cases Config.params exec v with ⟨e, _⟩ | ⟨e, rest, hi, hs⟩
    · rw [hp] at e
      cases e
    · rw [hp] at hi
      cases hi
      exact hs.trans (takeEvent_request _ _ _ _ (by rw [hp]; simp))
  exact ⟨_, (run_succ_of_next h1).trans (run_succ_of_next h2)⟩

/-- A log of one entry, and three events: an APPEND begun, a WARM reset, a read. -/
theorem witness_LogOnlyGrowsByWholeEntries :
    Inv Config.params { logged with port.inbox := [.begun (.write 0x00#8 0x40000000#32) 4, .reset .warm, .request (.read 0x1C#8)] } ∧
      logged.port.status ≠ .outstanding ∧ holdsEntries Config.params logged [entryA] ∧
      (∀ e ∈ [Event.begun (.write 0x00#8 0x40000000#32) 4, .reset .warm, .request (.read 0x1C#8)], keepsLog e = true) ∧
      ∃ t, Host.Core.run Sys2Proof.core 3
        { logged with port.inbox := [.begun (.write 0x00#8 0x40000000#32) 4, .reset .warm, .request (.read 0x1C#8)] } = .next t :=
  ⟨⟨inv_logged.rc, inv_logged.motion, inv_logged.identity, inv_logged.frameTag, inv_logged.log, fun _ => rfl⟩, by decide,
    holdsEntries_logged, by decide,
    (run_reset_read (congrArg Port.inbox (stateInside_port Config.params (.write 0x00#8 0x40000000#32) 4
      { logged with port.inbox := [.reset .warm, .request (.read 0x1C#8)] }))).imp
        fun _ h => (run_succ_of_next rfl).trans h⟩

theorem witness_SuccessfulAppendAddsItsEntry :
    holdsEntries Config.params logged [entryA] ∧ logged.cod.fstate = .verified ∧
      logged.log.cursor.toNat + entryBytes ≤ Config.params.logCapacity.val ∧ flashResult logged = .ok :=
  ⟨holdsEntries_logged, rfl, fits (n := 56) (by decide), rfl⟩

/-- An APPEND on a log of one entry, a WARM reset after it, and a read have a next state. -/
theorem run_append_reset_read :
    ∃ t, Host.Core.run Sys2Proof.core 3
      { logged with port.inbox := [.request (.write 0x00#8 0x40000000#32), .reset .warm, .request (.read 0x1C#8)] } =
        .next t := by
  let v : State := setCmd 0x40000000#32 { logged with port.inbox := [.reset .warm, .request (.read 0x1C#8)] }
  have hp : (append Config.params v).port = v.port :=
    commandStates_port Config.params .append v _ (append_mem_appendStates Config.params v)
  have hi : (giveAnswer (goodAnswer 0#32) (append Config.params v)).port.inbox = [.reset .warm, .request (.read 0x1C#8)] :=
    congrArg Port.inbox hp
  obtain ⟨t, ht⟩ := run_reset_read hi
  exact ⟨t, (run_succ_of_next (u := giveAnswer (goodAnswer 0#32) (append Config.params v)) rfl).trans ht⟩

/-- A log of one entry, and three events: an APPEND, which returns OK, a WARM reset after it, a read. -/
theorem witness_LogHoldsWhatWasAppended :
    Inv Config.params { logged with port.inbox := [.request (.write 0x00#8 0x40000000#32), .reset .warm, .request (.read 0x1C#8)] } ∧
      logged.port.status ≠ .outstanding ∧ holdsEntries Config.params logged [entryA] ∧
      (∀ e ∈ [Event.request (.write 0x00#8 0x40000000#32), .reset .warm, .request (.read 0x1C#8)],
        keepsLog e = true ∧ ∀ r k, e = .begun r k → commandOf r ≠ some .append) ∧
      ∃ t, Host.Core.run Sys2Proof.core 3
        { logged with port.inbox := [.request (.write 0x00#8 0x40000000#32), .reset .warm, .request (.read 0x1C#8)] } = .next t :=
  ⟨⟨inv_logged.rc, inv_logged.motion, inv_logged.identity, inv_logged.frameTag, inv_logged.log, fun _ => rfl⟩, by decide,
    holdsEntries_logged, fun e h => by
      simp only [List.mem_cons, List.not_mem_nil, or_false] at h
      rcases h with rfl | rfl | rfl <;> exact ⟨by decide, fun _ _ h => (by cases h)⟩,
    run_append_reset_read⟩

/-- No command but ERASE: an APPEND on a log of one entry, at the last byte below CURSOR. -/
theorem witness_LogHoldsWhatWasAppended_below :
    Instr.append ≠ .erase ∧ exec .append logged = .next (append Config.params logged) ∧ 27 < logged.log.cursor.toNat :=
  ⟨by decide, rfl, by decide⟩

theorem witness_ReturnCodesOfEachCommand_illegal : decode 0x41000001#32 = .error (.lowBitsSet 0x41#8 1#24) := by decide

theorem witness_ReturnCodesOfEachCommand : exec .erase (start 0#32 .fail) = .next (eraseLog Config.params (start 0#32 .fail)) := rfl

theorem witness_RefusalsAreWithoutTrace :
    exec .encrypt (start 0#32 .ok) = .next (ret .errSeq 0#32 (start 0#32 .ok)) ∧
      (ret .errSeq 0#32 (start 0#32 .ok)).sys.rc.toNat ∈ [5, 6, 7, 8] :=
  ⟨rfl, by decide⟩

theorem witness_WarmResetKeepsTheLog : logged.log.phase = .idle := rfl

theorem witness_FirstReadsAfterReset :
    step (pending (.reset .warm) [] logged) = .next (resetMove Config.params .warm logged) ∧ logged.log.phase = .idle ∧
      step (pending (.reset (.cold [])) [] logged) = .next (resetMove Config.params (.cold []) logged) :=
  ⟨rfl, rfl, rfl⟩

theorem witness_ObserveKeepsMotionInEveryConfiguration : MotionOk Config.params (warmed 20#8 jolt (start 0#32 .ok)).mot :=
  motionOk_warmed jolt

theorem witness_StepKeepsMotionInvariant :
    MotionOk Config.params (pending (.request (.write 0x00#8 0x20000000#32)) [] (warmed 20#8 jolt (start 0#32 .ok))).mot ∧
      ∃ t, step (pending (.request (.write 0x00#8 0x20000000#32)) [] (warmed 20#8 jolt (start 0#32 .ok))) = .next t :=
  ⟨motionOk_warmed jolt, _, rfl⟩

theorem witness_StepKeepsFrameAndIdentity :
    FrameTagOk Config.params (pending (.reset .warm) [] (verifiedA .ok)).cod ∧
      IdentityOk Config.params (pending (.reset .warm) [] (verifiedA .ok)).cod ∧
      ∃ t, step (pending (.reset .warm) [] (verifiedA .ok)) = .next t :=
  ⟨(inv_verifiedA .ok).frameTag, (inv_verifiedA .ok).identity, _, rfl⟩

theorem witness_StepKeepsCrashSafety :
    Inv Config.params (pending (.request (.write 0x00#8 0x40000000#32)) [] logged) ∧
      ∃ t, step (pending (.request (.write 0x00#8 0x40000000#32)) [] logged) = .next t :=
  ⟨⟨inv_logged.rc, inv_logged.motion, inv_logged.identity, inv_logged.frameTag, inv_logged.log, fun _ => rfl⟩, _, rfl⟩

/-! ## Another configuration -/

/-- A record with other constants, and no room for an entry. -/
def paramsU : Params :=
  { paramsT with
    depth := 2
    maxTicks := 255
    v1Init := 0#32
    logCapacity := 0
    depth_range := by decide
    maxTicks_range := by decide }

theorem inv_resetU : Inv paramsU (resetIn paramsU) where
  rc := Nat.zero_le _
  motion := ⟨rfl, rfl, rfl, rfl, Nat.zero_lt_succ _, Nat.zero_le _, fun _ => rfl⟩
  identity := ⟨fun _ => rfl, fun h => (by cases h)⟩
  frameTag := ⟨fun h => (by cases h), fun h => (by cases h)⟩
  log :=
    { aligned := rfl
      inside := Nat.zero_le _
      flashWf := List.Pairwise.nil
      flashInside := fun c h => (by cases h)
      entries := fun k h => by
        have : 28 * (k + 1) ≤ 0 := h
        omega
      phase := trivial }
  phaseIdle := fun _ => rfl

theorem witness_ResetsInEveryConfiguration : Inv paramsU (resetIn paramsU) := inv_resetU

/-- No room at all; LV4's full log of 84 bytes; LV3's entry that ends exactly at LOG_CAPACITY. -/
theorem witness_AppendFillsTheRegionInEveryConfiguration :
    (verifiedA .ok).cod.fstate = .verified ∧ (verifiedA .ok).log.cursor.toNat % 28 = 0 ∧
      paramsU.logCapacity.val < (verifiedA .ok).log.cursor.toNat + 28 ∧
      (withCursor 84#32 (verifiedA .ok)).log.cursor.toNat % 28 = 0 ∧
      paramsT.logCapacity.val < (withCursor 84#32 (verifiedA .ok)).log.cursor.toNat + 28 ∧
      (withCursor 56#32 (verifiedA .ok)).log.cursor.toNat % 28 = 0 ∧
      (withCursor 56#32 (verifiedA .ok)).log.cursor.toNat + 28 = paramsT.logCapacity.val ∧
      flashResult (withCursor 56#32 (verifiedA .ok)) = .ok := by decide

theorem witness_StepKeepsTheInvariantInEveryConfiguration :
    Inv paramsU (pending (.request (.write 0x00#8 0x20000000#32)) [] (resetIn paramsU)) ∧
      ∃ t, stepIn paramsU (pending (.request (.write 0x00#8 0x20000000#32)) [] (resetIn paramsU)) = .next t :=
  ⟨⟨inv_resetU.rc, inv_resetU.motion, inv_resetU.identity, inv_resetU.frameTag, inv_resetU.log, fun _ => rfl⟩, _, rfl⟩

end Sys2Proof.Tests
end

