-- ==== Sys2Proof/Proofs/Scope.lean ====
section
/-! PROOF. The scope of the model (00_scope.md): `exec` ends in the last state that `commandStates` lists (R9), and the
machine of the fixed names runs with the defaults of the configuration record (R3). -/

namespace Sys2Proof.Machine

/-- APPEND run whole ends in the last state it passes through, whichever test or driver report ends it
(43_log.md R130, R136). -/
theorem appendStates_getLastD (p : Params) (s d : State) : (appendStates p s).getLastD d = append p s := by
  rcases appendStates_cases p s with
    ⟨t, hprep, hstates⟩ | ⟨entry, t, hprep, ⟨u, hwrite, hstates⟩ | ⟨u, hwrite, hstates⟩⟩
  case inl => simp [hstates, append, hprep]
  case inr.inl => simp [hstates, append, hprep, hwrite]
  case inr.inr => simp [hstates, append, hprep, hwrite]

/-- In every configuration a command ends in the last state it passes through (00_scope.md R9): by the tests and the
driver's report for APPEND, and by the list itself for the nine others. -/
theorem execIn_eq_last_commandStates (p : Params) (i : Instr) (s d : State) :
    execIn p i s = .next ((commandStates p i s).getLastD d) := by
  cases i
  case append => exact congrArg Host.Outcome.next (appendStates_getLastD p s d).symm
  all_goals rfl

/-- Settles O39: `exec` is `execIn` with the default configuration, and `execIn` ends in the last state listed. -/
theorem commandEndsInItsLastState : Obligations.CommandEndsInItsLastState := by
  intro i s
  rw [exec_eq_execIn]
  exact execIn_eq_last_commandStates Config.params i s s

/-- The checksum of no bytes is its initial value (00_scope.md R7). -/
theorem crcCcittFalse_nil : crcCcittFalse [] = 0xFFFF#16 := rfl

/-- The checksum of one zero byte: eight bit steps from the initial value (00_scope.md R7). -/
theorem crcCcittFalse_zeroByte : crcCcittFalse [0x00#8] = 0xE1F0#16 := by decide

/-- The default configuration's log region has 84 bytes and a free number more (log entry 1). -/
theorem params_logCapacity_ge : 84 ≤ Config.params.logCapacity.val :=
  Nat.le_add_right 84 Config.spareCapacity.val

/-- Settles O57: the three fixed names are the configured ones by the laws of the step, and the record holds the
defaults of the table by its definition. -/
theorem machineRunsTheDefaultConfiguration : Obligations.MachineRunsTheDefaultConfiguration :=
  ⟨congrFun₂ exec_eq_execIn, congrFun step_eq_stepIn, reset_eq_resetIn,
    rfl, rfl, rfl, rfl, rfl, rfl, rfl, rfl, rfl, rfl, rfl, rfl,
    crcCcittFalse_nil, crcCcittFalse_zeroByte, params_logCapacity_ge⟩

end Sys2Proof.Machine
end

section
/-! PROOF. The state of the block (10_state.md): what the commands do to each unit at every moment, the invariants that every
step keeps (R39), the register map (R10), STATUS (R17) and the frame window (R27). -/

namespace Sys2Proof.Machine

/-! ## What commands, transactions and steps can do -/

/-- RC holds what it held in `s`, or a code that `ret` has stored (60_exceptions.md R165, R166). -/
def rcReturned (s x : State) : Prop :=
  x.sys.rc = s.sys.rc ∨ ∃ code : RetCode, x.sys.rc = code.number

theorem rcReturned_refl (s : State) : rcReturned s s :=
  .inl rfl

theorem rcReturned_ret (code : RetCode) (res : Word) (s t : State) : rcReturned s (ret code res t) :=
  .inr ⟨code, rfl⟩

/-- The eleven codes are 0 to 10 (60_exceptions.md R166). -/
theorem RetCode.number_le (code : RetCode) : code.number.toNat ≤ 10 := by
  cases code <;> decide

/-- The entry an APPEND begun in `s` builds (43_log.md R133). -/
def appendEntry (p : Params) (s : State) : List Byte :=
  logEntry p (timerSample s) s.cod.frame

/-- What the log unit holds at some moment of an APPEND begun in `s` (43_log.md R130, R136). -/
inductive AppendLog (p : Params) (s : State) : Log → Prop
  /-- before the flash write, or refused -/
  | same : AppendLog p s s.log
  /-- A_WRITE -/
  | writing (verified : s.cod.fstate = .verified) (fits : s.log.cursor.toNat + entryBytes ≤ p.logCapacity.val) :
      AppendLog p s { s.log with phase := .aWrite (appendEntry p s) }
  /-- the driver has reported `fail` -/
  | failed (verified : s.cod.fstate = .verified) (fits : s.log.cursor.toNat + entryBytes ≤ p.logCapacity.val) :
      AppendLog p s
        { s.log with
          flash := (tearBytes s.log.flash s.log.cursor.toNat (appendEntry p s) s.env.torn).1, phase := .idle }
  /-- A_COMMIT -/
  | written (verified : s.cod.fstate = .verified) (fits : s.log.cursor.toNat + entryBytes ≤ p.logCapacity.val) :
      AppendLog p s
        { s.log with flash := s.log.flash.writeBytes s.log.cursor.toNat (appendEntry p s), phase := .aCommit }
  /-- the cursor is written -/
  | advanced (verified : s.cod.fstate = .verified) (fits : s.log.cursor.toNat + entryBytes ≤ p.logCapacity.val) :
      AppendLog p s
        { cursor := nextCursor s, phase := .idle,
          flash := s.log.flash.writeBytes s.log.cursor.toNat (appendEntry p s) }

/-- What the log unit holds at some moment of an ERASE begun in `s` (43_log.md R139, R141). -/
inductive EraseLog (p : Params) (s : State) : Log → Prop
  /-- before the rewind -/
  | same : EraseLog p s s.log
  /-- E_COMMIT -/
  | rewinding : EraseLog p s { s.log with phase := .eCommit }
  /-- E_ERASE -/
  | rewound : EraseLog p s { s.log with cursor := 0#32, phase := .eErase }
  /-- the driver has reported `ok` -/
  | erased : EraseLog p s { cursor := 0#32, phase := .idle, flash := Memory.ofBytes 0 (erasedRegion p) }
  /-- the driver has reported `fail` -/
  | failed :
      EraseLog p s
        { cursor := 0#32, phase := .idle, flash := (tearBytes s.log.flash 0 (erasedRegion p) s.env.torn).1 }

/-- The state in which the flash write of an APPEND begun in `s` is in progress (43_log.md R130). -/
def appendWriting (p : Params) (s : State) : State :=
  setPhase (.aWrite (appendEntry p s)) (timerTaken (setFState .empty s))

/-- The flash write of an APPEND, with what the driver reports tied to what it does to the region
(43_log.md R134, 20_memory.md R47). -/
theorem appendWrite_appendWriting_cases (p : Params) (s : State) :
    appendWrite (appendEntry p s) (appendWriting p s) =
        .ok (setPhase .aCommit { resultTaken (appendWriting p s) with
          log.flash := s.log.flash.writeBytes s.log.cursor.toNat (appendEntry p s) }) ∨
      appendWrite (appendEntry p s) (appendWriting p s) =
        .error (ret .writeFail s.log.cursor
          (setPhase .idle (tearFlash s.log.cursor.toNat (appendEntry p s) (resultTaken (appendWriting p s))))) := by
  rcases appendWrite_cases (appendEntry p s) (appendWriting p s) with ⟨hr, hw⟩ | ⟨hr, hw⟩ <;>
    rcases memWrite_cases s.log.cursor.toNat (appendEntry p s) (appendWriting p s) with ⟨hm, e⟩ | ⟨hm, e⟩
  · exact .inl (hw.trans (congrArg (fun t => Except.ok (setPhase .aCommit t)) e))
  · exact absurd (hr.symm.trans hm) (by decide)
  · exact absurd (hr.symm.trans hm) (by decide)
  · exact .inr (hw.trans (congrArg (fun t => Except.error (ret .writeFail s.log.cursor (setPhase .idle t))) e))

/-- What APPEND leaves alone at every moment, and all it does to FSTATE, RC and the log unit (43_log.md R130, R136). -/
structure AppendEffect (p : Params) (s x : State) : Prop where
  mot : x.mot = s.mot
  cod : x.cod = s.cod ∨ x.cod = { s.cod with fstate := .empty }
  rc : rcReturned s x
  log : AppendLog p s x.log

theorem appendStates_effect (p : Params) (s : State) : ∀ x ∈ appendStates p s, AppendEffect p s x := by
  have start : AppendEffect p s s := ⟨rfl, .inl rfl, rcReturned_refl s, .same⟩
  rcases appendPrepare_cases p s with ⟨_, hp⟩ | ⟨_, _, hp⟩ | ⟨_, _, _, hp⟩ | ⟨hv, _, hfits, hp⟩
  case inr.inr.inr =>
    change appendPrepare p s = .ok (appendEntry p s, timerTaken (setFState .empty s)) at hp
    have built : AppendEffect p s (timerTaken (setFState .empty s)) := ⟨rfl, .inr rfl, rcReturned_refl s, .same⟩
    have writing : AppendEffect p s (appendWriting p s) := ⟨rfl, .inr rfl, rcReturned_refl s, .writing hv hfits⟩
    rcases appendWrite_appendWriting_cases p s with hw | hw <;> rw [appendWriting] at hw writing <;>
      simp only [appendStates, hp, hw, List.forall_mem_cons]
    · exact ⟨start, built, writing, ⟨rfl, .inr rfl, .inl rfl, .written hv hfits⟩,
        ⟨rfl, .inr rfl, .inl rfl, .advanced hv hfits⟩,
        ⟨rfl, .inr rfl, rcReturned_ret _ _ _ _, .advanced hv hfits⟩, by simp⟩
    · exact ⟨start, built, writing, ⟨rfl, .inr rfl, rcReturned_ret _ _ _ _, .failed hv hfits⟩, by simp⟩
  all_goals simp only [appendStates, hp, List.forall_mem_cons]
  · exact ⟨start, ⟨rfl, .inl rfl, rcReturned_ret _ _ _ _, .same⟩, by simp⟩
  · exact ⟨start, ⟨rfl, .inr rfl, rcReturned_ret _ _ _ _, .same⟩, by simp⟩
  · exact ⟨start, ⟨rfl, .inr rfl, rcReturned_ret _ _ _ _, .same⟩, by simp⟩

/-- What ERASE leaves alone at every moment, and all it does to RC and the log unit (43_log.md R139, R141). -/
structure EraseEffect (p : Params) (s x : State) : Prop where
  mot : x.mot = s.mot
  cod : x.cod = s.cod
  rc : rcReturned s x
  log : EraseLog p s x.log

theorem eraseStates_effect (p : Params) (s : State) : ∀ x ∈ eraseStates p s, EraseEffect p s x := by
  obtain ⟨hsys, _, hmot, hcod, _, _⟩ := flashErase_frame p (eraseRewind (eraseStart s))
  have hlog : EraseLog p s (eraseRegion p (eraseRewind (eraseStart s))).log := by
    rcases flashErase_cases p (eraseRewind (eraseStart s)) with ⟨_, e⟩ | ⟨_, e⟩ <;> rw [eraseRegion, e]
    · exact .erased
    · exact .failed
  simp only [eraseStates, List.forall_mem_cons]
  exact ⟨⟨rfl, rfl, rcReturned_refl s, .same⟩, ⟨rfl, rfl, .inl rfl, .rewinding⟩, ⟨rfl, rfl, .inl rfl, .rewound⟩,
    ⟨hmot, hcod, .inl (congrArg Sys.rc hsys), hlog⟩, ⟨hmot, hcod, rcReturned_ret _ _ _ _, hlog⟩, by simp⟩

/-- What a draw leaves alone (40_jitter.md R85). -/
theorem drawJitter_frame (p : Params) (range : Word) (s : State) :
    (drawJitter p range s).mot = s.mot ∧ (drawJitter p range s).cod = s.cod ∧ rcReturned s (drawJitter p range s) := by
  rcases drawJitter_cases p range s with ⟨_, h⟩ | ⟨_, h⟩ <;> rw [h] <;> exact ⟨rfl, rfl, rcReturned_ret _ _ _ _⟩

/-- RC at every moment of a command (60_exceptions.md R165). -/
theorem commandStates_rc (p : Params) (i : Instr) (s : State) : ∀ x ∈ commandStates p i s, rcReturned s x := by
  cases i
  case append => exact fun x hx => (appendStates_effect p s x hx).rc
  case erase => exact fun x hx => (eraseStates_effect p s x hx).rc
  all_goals
    simp only [commandStates, List.forall_mem_cons]
    refine ⟨rcReturned_refl s, ?_, by simp⟩
  case nop => exact rcReturned_ret _ _ _ _
  case setid => rcases deriveIdentity_cases p s with ⟨_, h⟩ | ⟨_, h⟩ <;> rw [h] <;> exact rcReturned_ret _ _ _ _
  case next => exact (drawJitter_frame p s.jit.arg s).2.2
  case nexti imm => exact (drawJitter_frame p imm s).2.2
  case observe => exact rcReturned_ret _ _ _ _
  case encode => rcases encodeFrame_cases p s with ⟨_, h⟩ | ⟨_, h⟩ <;> rw [h] <;> exact rcReturned_ret _ _ _ _
  case encrypt => rcases encryptFrame_cases p s with ⟨_, h⟩ | ⟨_, h⟩ <;> rw [h] <;> exact rcReturned_ret _ _ _ _
  case verify =>
    rcases verifyFrame_cases p s with ⟨_, h⟩ | ⟨_, _, h⟩ | ⟨_, _, _, h⟩ | ⟨_, _, _, h⟩ <;> rw [h] <;>
      exact rcReturned_ret _ _ _ _

/-- The motion unit at every moment of a command: only OBSERVE moves it (41_motion.md R101). -/
theorem commandStates_mot (p : Params) (i : Instr) (s : State) :
    ∀ x ∈ commandStates p i s, x.mot = s.mot ∨ x.mot = observeMot p s.mot := by
  cases i
  case append => exact fun x hx => .inl (appendStates_effect p s x hx).mot
  case erase => exact fun x hx => .inl (eraseStates_effect p s x hx).mot
  all_goals
    simp only [commandStates, List.mem_cons, List.not_mem_nil, or_false]
    rintro x (rfl | rfl)
    · exact .inl rfl
  case nop => exact .inl rfl
  case setid => rcases deriveIdentity_cases p s with ⟨_, h⟩ | ⟨_, h⟩ <;> rw [h] <;> exact .inl rfl
  case next => exact .inl (drawJitter_frame p s.jit.arg s).1
  case nexti imm => exact .inl (drawJitter_frame p imm s).1
  case observe => exact .inr rfl
  case encode => rcases encodeFrame_cases p s with ⟨_, h⟩ | ⟨_, h⟩ <;> rw [h] <;> exact .inl rfl
  case encrypt => rcases encryptFrame_cases p s with ⟨_, h⟩ | ⟨_, h⟩ <;> rw [h] <;> exact .inl rfl
  case verify =>
    rcases verifyFrame_cases p s with ⟨_, h⟩ | ⟨_, _, h⟩ | ⟨_, _, _, h⟩ | ⟨_, _, _, h⟩ <;> rw [h] <;> exact .inl rfl

/-- A command run whole ends in one of the states it passes through (00_scope.md R9). -/
theorem execIn_mem_commandStates {p : Params} {i : Instr} {s t : State} (h : execIn p i s = .next t) :
    t ∈ commandStates p i s := by
  cases i
  case append =>
    cases h
    exact append_mem_appendStates p s
  case erase =>
    cases h
    simp [commandStates, eraseStates]
  all_goals
    cases h
    simp [commandStates]

/-- No command run whole leaves the log unit inside a sub-step (10_state.md R38). -/
theorem execIn_phase_idle {p : Params} {i : Instr} {s t : State} (h : execIn p i s = .next t)
    (hs : s.log.phase = .idle) : t.log.phase = .idle := by
  by_cases ha : i = .append
  · subst ha
    cases h
    rcases appendPrepare_cases p s with ⟨_, hp⟩ | ⟨_, _, hp⟩ | ⟨_, _, _, hp⟩ | ⟨_, _, _, hp⟩
    case inr.inr.inr =>
      change appendPrepare p s = .ok (appendEntry p s, timerTaken (setFState .empty s)) at hp
      rcases appendWrite_appendWriting_cases p s with hw | hw <;> rw [appendWriting] at hw <;>
        simp only [append, hp, hw] <;> rfl
    all_goals
      rw [append, hp]
      exact hs
  · by_cases he : i = .erase
    · subst he
      cases h
      rfl
    · rw [(commandStates_other ha he t (execIn_mem_commandStates h)).1]
      exact hs

/-- What one transaction run whole can do: answer, having left the state alone, written a register, met a word that is no
command, or run a command (20_memory.md R41 to R45, 30_encoding.md R61). -/
theorem transact_cases {p : Params} {run : Runner} {r : Request} {s t : State} (h : transact p run r s = .next t) :
    ∃ a x, t = giveAnswer a x ∧
      (x = s ∨ (∃ r w, writeReg r w s = some x) ∨ (∃ w, x = illegalCommand (setCmd w s)) ∨
        ∃ w i, r = .write 0x00#8 w ∧ decode w = .ok i ∧ run i (setCmd w s) = .next x) := by
  cases r with
  | read rn =>
    cases h
    exact ⟨_, s, rfl, .inl rfl⟩
  | write rn w =>
    simp only [transact] at h
    split at h
    · cases h
      exact ⟨_, s, rfl, .inl rfl⟩
    · rename_i hrn
      rw [regOfNumber_cmd hrn]
      cases hd : decode w with
      | error e =>
        simp only [runCommand, executeWord, hd, answerCommand] at h
        cases h
        exact ⟨_, _, rfl, .inr (.inr (.inl ⟨w, rfl⟩))⟩
      | ok i =>
        simp only [runCommand, executeWord, hd] at h
        cases hx : run i (setCmd w s) <;> rw [hx] at h <;> cases h
        exact ⟨_, _, rfl, .inr (.inr (.inr ⟨w, i, rfl, hd, hx⟩))⟩
    · rename_i r _ _
      cases h
      rw [storeRegister]
      cases hw : writeReg r w s with
      | none => exact ⟨_, s, rfl, .inl rfl⟩
      | some x => exact ⟨_, x, rfl, .inr (.inl ⟨r, w, hw⟩)⟩

/-- The moves out of which every step is made, and the port: what a property of states has to survive to be kept by every
step (00_scope.md R9). A command counts at each of its moments, since a reset or a hanging driver can find it there
(70_reset_and_hazards.md R197). -/
structure StepClosed (p : Params) (P : State → Prop) : Prop where
  port : ∀ s q, P s → P { s with port := q }
  store : ∀ w s, P s → P (setCmd w s)
  illegal : ∀ s, P s → P (illegalCommand s)
  write : ∀ r w s t, P s → writeReg r w s = some t → P t
  command : ∀ i s, P s → ∀ x ∈ commandStates p i s, P x
  reset : ∀ k s, P s → P (resetMove p k s)

/-- Such a property is kept by every step. -/
theorem StepClosed.step {p : Params} {P : State → Prop} (hP : StepClosed p P) {s t : State} (hs : P s)
    (h : stepIn p s = .next t) : P t := by
  rcases stepWith_cases p (execIn p) s with ⟨_, e⟩ | ⟨e, rest, _, he⟩
  · cases e.symm.trans h
    exact hs
  · have h := he.symm.trans h
    have hs : P { s with port.inbox := rest } := hP.port s _ hs
    cases e with
    | reset k =>
      cases h
      exact hP.reset k _ hs
    | begun r n =>
      obtain ⟨_, rfl⟩ := takeEvent_begun_next h
      obtain ⟨x, hx, hin⟩ := stateInside_mem p r n { s with port.inbox := rest }
      rw [hin]
      refine hP.port x _ (hx.elim (fun hx => hx ▸ hs) ?_)
      exact forall_requestStates p P r _ hs (fun w i _ _ => hP.command i _ (hP.store w _ hs))
        (fun w => ⟨hP.store w _ hs, hP.illegal _ (hP.store w _ hs)⟩) (fun r w t => hP.write r w _ t hs) x
    | request r =>
      obtain ⟨_, ht⟩ := takeEvent_request_next h
      obtain ⟨a, x, rfl, hx⟩ := transact_cases ht
      refine hP.port x _ ?_
      rcases hx with rfl | ⟨r, w, hw⟩ | ⟨w, rfl⟩ | ⟨w, i, _, _, hx⟩
      · exact hs
      · exact hP.write r w _ x hs hw
      · exact hP.illegal _ (hP.store w _ hs)
      · exact hP.command i _ (hP.store w _ hs) x (execIn_mem_commandStates hx)

/-! ## Unit MOT -/

/-- The invariants of the motion unit speak of everything but the sample operand. -/
theorem MotionOk.of_eq {p : Params} {m n : Mot} (h : MotionOk p m) (hbuf : n.buf = m.buf) (hsum : n.sum = m.sum)
    (hpos : n.pos = m.pos) (hwarm : n.warm = m.warm) (hticks : n.ticks = m.ticks) : MotionOk p n where
  length := hbuf ▸ h.length
  sumX := by rw [hsum, hbuf, h.sumX]
  sumY := by rw [hsum, hbuf, h.sumY]
  sumZ := by rw [hsum, hbuf, h.sumZ]
  pos := hpos ▸ h.pos
  ticks := hticks ▸ h.ticks
  warm := by rw [hwarm, hticks]; exact h.warm

theorem axisTotal_replicate_zero (axis : Axes Half → Half) (hz : axis ⟨0#16, 0#16, 0#16⟩ = 0#16) (n : Nat) :
    axisTotal axis (List.replicate n ⟨0#16, 0#16, 0#16⟩) = 0 := by
  simp [axisTotal, hz]

/-- The motion unit after a reset (10_state.md R39). -/
theorem motionOk_initial (p : Params) : MotionOk p (initialState p).mot where
  length := List.length_replicate
  sumX := (axisTotal_replicate_zero Axes.x rfl p.depth).symm
  sumY := (axisTotal_replicate_zero Axes.y rfl p.depth).symm
  sumZ := (axisTotal_replicate_zero Axes.z rfl p.depth).symm
  pos := p.depth_range.1
  ticks := Nat.zero_le _
  warm := fun _ => rfl

/-- TICKS never exceeds MAX_TICKS, whether the sample qualifies or not (41_motion.md R95). -/
theorem nextTicks_le (p : Params) (q : Bool) {ticks : Byte} (h : ticks.toNat ≤ p.maxTicks) :
    (nextTicks p q ticks).toNat ≤ p.maxTicks := by
  cases q
  · rw [nextTicks_false]
    omega
  · rw [nextTicks_true]

/-- Inside the buffer the overwritten slot is the one at POS (41_motion.md R92). -/
theorem oldSample_eq_getElem {m : Mot} (h : m.pos.toNat < m.buf.length) : oldSample m = m.buf[m.pos.toNat] := by
  simp [oldSample, h]

/-- OBSERVE keeps the invariants of the motion unit (41_motion.md R91, R92, R95). -/
theorem MotionOk.observe {p : Params} {m : Mot} (h : MotionOk p m) : MotionOk p (observeMot p m) := by
  have hlt : m.pos.toNat < m.buf.length := h.length ▸ h.pos
  have hle : m.buf.length ≤ 256 := h.length ▸ p.depth_range.2
  have hold := oldSample_eq_getElem hlt
  exact
    { length := by rw [← h.length]; exact List.length_set
      sumX := by
        rw [observeMot, slideSums, hold]
        exact (slideSum_toInt hlt hle h.sumX).1
      sumY := by
        rw [observeMot, slideSums, hold]
        exact (slideSum_toInt hlt hle h.sumY).1
      sumZ := by
        rw [observeMot, slideSums, hold]
        exact (slideSum_toInt hlt hle h.sumZ).1
      pos := by
        rw [observeMot, nextPos_toNat]
        exact Nat.mod_lt _ p.depth_range.1
      ticks := by
        cases hw : m.warm <;> simp only [observeMot, hw]
        · exact h.ticks
        · exact nextTicks_le p _ h.ticks
      warm := by
        cases hw : m.warm <;> simp [observeMot, hw, h.warm] }

/-- Settles O53: the sums by the sliding law, the rest by the laws of POS and TICKS. -/
theorem observeKeepsMotionInEveryConfiguration : Obligations.ObserveKeepsMotionInEveryConfiguration :=
  fun _ _ h => h.observe

/-- Either reset leaves the motion unit as the first power-up does (10_state.md R39). -/
theorem resetMove_mot (p : Params) (k : ResetKind) (s : State) : (resetMove p k s).mot = (initialState p).mot := by
  cases k <;> rfl

/-- The motion unit, in every configuration. -/
theorem motionOk_stepClosed (p : Params) : StepClosed p (fun s => MotionOk p s.mot) where
  port := fun _ _ h => h
  store := fun _ _ h => h
  illegal := fun _ h => h
  write := fun r w s t h hw => by
    obtain ⟨_, _, _, hbuf, hsum, hpos, hwarm, hticks, _⟩ := writeReg_frame hw
    exact h.of_eq hbuf hsum hpos hwarm hticks
  command := fun i s h x hx => by
    rcases commandStates_mot p i s x hx with e | e <;> rw [e]
    · exact h
    · exact h.observe
  reset := fun k s _ => resetMove_mot p k s ▸ motionOk_initial p

/-- Settles O54: the motion unit is kept by every move, in the default configuration as in every other. -/
theorem stepKeepsMotionInvariant : Obligations.StepKeepsMotionInvariant := by
  intro s t hs h
  rw [step_eq_stepIn] at h
  exact (motionOk_stepClosed Config.params).step hs h

/-! ## Unit COD -/

/-- A frame tagged EMPTY or RAW is under no claim (10_state.md R28). -/
theorem frameTagOk_of_unclaimed {p : Params} {c : Cod} (hb : c.fstate ≠ .built) (hv : c.fstate ≠ .verified) :
    FrameTagOk p c :=
  ⟨fun h => absurd h hb, fun h => absurd h hv⟩

/-- A frame that passes VERIFY's tests may have any tag. -/
theorem frameTagOk_of_good {p : Params} {c : Cod} (h : goodFrame p c.frame) : FrameTagOk p c :=
  ⟨fun _ => h, fun _ => h⟩

theorem FrameTagOk.of_eq {p : Params} {c d : Cod} (h : FrameTagOk p c) (hframe : d.frame = c.frame)
    (hfstate : d.fstate = c.fstate) : FrameTagOk p d :=
  ⟨by rw [hframe, hfstate]; exact h.built, by rw [hframe, hfstate]; exact h.verified⟩

/-- The identity is kept where IDVALID and TAGID are, and the UID registers are once an identity is set
(44_system.md R152). -/
theorem IdentityOk.of_eq {p : Params} {c d : Cod} (h : IdentityOk p c) (htag : d.tagId = c.tagId)
    (hvalid : d.idValid = c.idValid) (huid : c.idValid = true → d.uid = c.uid) : IdentityOk p d where
  unset := by
    rw [hvalid, htag]
    exact h.unset
  derived := by
    rw [hvalid, htag]
    exact fun hv => huid hv ▸ h.derived hv

/-- What ENCODE builds passes VERIFY's tests (42_codec.md R106, R107, R112). -/
theorem goodFrame_builtFrame (p : Params) (t : Word) (s : State) : goodFrame p (builtFrame p t s) :=
  ⟨(computedCrc_builtFrame p t s).trans (embeddedCrc_builtFrame p t s).symm, rfl⟩

/-- A write of a register leaves FRAME and FSTATE as they were, or tags the frame RAW (10_state.md R27). -/
theorem writeReg_frameTag {r : Reg} {w : Word} {s t : State} (h : writeReg r w s = some t) :
    t.cod.fstate = .raw ∨ (t.cod.frame = s.cod.frame ∧ t.cod.fstate = s.cod.fstate) := by
  cases r <;> simp only [writeReg, reduceCtorEq, Option.some.injEq] at h
  case f i =>
    cases h
    exact .inl rfl
  case uid i =>
    split at h
    · cases h
    · cases h
      exact .inr ⟨rfl, rfl⟩
  all_goals
    cases h
    exact .inr ⟨rfl, rfl⟩

/-- FSTATE tells the truth about FRAME, and TAGID about the UID (10_state.md R21, R28). -/
structure CodecOk (p : Params) (c : Cod) : Prop where
  frameTag : FrameTagOk p c
  identity : IdentityOk p c

theorem codecOk_initial (p : Params) : CodecOk p (initialState p).cod where
  frameTag := frameTagOk_of_unclaimed nofun nofun
  identity := ⟨fun _ => rfl, nofun⟩

/-- The same registers with a frame of which nothing is claimed. -/
theorem CodecOk.unclaim {p : Params} {c : Cod} (h : CodecOk p c) (f : Frame) {t : FState} (hb : t ≠ .built)
    (hv : t ≠ .verified) : CodecOk p { c with frame := f, fstate := t } where
  frameTag := frameTagOk_of_unclaimed hb hv
  identity := ⟨h.identity.unset, h.identity.derived⟩

/-- The codec unit at every moment of a command (42_codec.md R106 to R113, 44_system.md R151). -/
theorem CodecOk.command {p : Params} {i : Instr} {s : State} (h : CodecOk p s.cod) :
    ∀ x ∈ commandStates p i s, CodecOk p x.cod := by
  cases i
  case append =>
    intro x hx
    rcases (appendStates_effect p s x hx).cod with e | e <;> rw [e]
    · exact h
    · exact h.unclaim s.cod.frame nofun nofun
  case erase =>
    intro x hx
    rw [(eraseStates_effect p s x hx).cod]
    exact h
  all_goals
    simp only [commandStates, List.forall_mem_cons]
    refine ⟨h, ?_, by simp⟩
  case nop => exact h
  case setid =>
    rcases deriveIdentity_cases p s with ⟨_, e⟩ | ⟨_, e⟩ <;> rw [e]
    · exact h
    · exact ⟨h.frameTag.of_eq rfl rfl, ⟨nofun, fun _ => rfl⟩⟩
  case next => exact (drawJitter_frame p s.jit.arg s).2.1 ▸ h
  case nexti imm => exact (drawJitter_frame p imm s).2.1 ▸ h
  case observe => exact h
  case encode =>
    rcases encodeFrame_cases p s with ⟨_, e⟩ | ⟨_, e⟩ <;> rw [e]
    · exact h
    · exact ⟨frameTagOk_of_good (goodFrame_builtFrame p _ s), ⟨h.identity.unset, h.identity.derived⟩⟩
  case encrypt =>
    rcases encryptFrame_cases p s with ⟨_, e⟩ | ⟨_, e⟩ <;> rw [e]
    · exact h
    · exact h.unclaim _ nofun nofun
  case verify =>
    rcases verifyFrame_cases p s with ⟨_, e⟩ | ⟨_, _, e⟩ | ⟨_, _, _, e⟩ | ⟨_, hcrc, htag, e⟩ <;> rw [e]
    · exact h
    · exact h.unclaim _ nofun nofun
    · exact h.unclaim _ nofun nofun
    · exact ⟨frameTagOk_of_good ⟨hcrc, htag⟩, ⟨h.identity.unset, h.identity.derived⟩⟩

theorem CodecOk.write {p : Params} {r : Reg} {w : Word} {s t : State} (h : CodecOk p s.cod)
    (hw : writeReg r w s = some t) : CodecOk p t.cod where
  frameTag := by
    rcases writeReg_frameTag hw with hraw | ⟨hframe, hfstate⟩
    · exact frameTagOk_of_unclaimed (by simp [hraw]) (by simp [hraw])
    · exact h.frameTag.of_eq hframe hfstate
  identity := by
    obtain ⟨_, _, _, _, _, _, _, _, htag, hvalid, huid⟩ := writeReg_frame hw
    exact h.identity.of_eq htag hvalid huid

theorem resetMove_cod (p : Params) (k : ResetKind) (s : State) : (resetMove p k s).cod = (initialState p).cod := by
  cases k <;> rfl

/-- The codec unit, in every configuration. -/
theorem codecOk_stepClosed (p : Params) : StepClosed p (fun s => CodecOk p s.cod) where
  port := fun _ _ h => h
  store := fun _ _ h => h
  illegal := fun _ h => h
  write := fun _ _ _ _ h hw => h.write hw
  command := fun _ _ h => h.command
  reset := fun k s _ => resetMove_cod p k s ▸ codecOk_initial p

/-- Settles O55: every move keeps the frame's tag and the identity, in the default configuration as in every other. -/
theorem stepKeepsFrameAndIdentity : Obligations.StepKeepsFrameAndIdentity := by
  intro s t hframe hid h
  rw [step_eq_stepIn] at h
  obtain ⟨hframe', hid'⟩ := (codecOk_stepClosed Config.params).step ⟨hframe, hid⟩ h
  exact ⟨hframe', hid'⟩

/-! ## Unit LOG -/

/-- What a slot holds depends on its bytes alone. -/
theorem slotOk_congr {p : Params} {m n : Memory} {a : Nat} (h : slotOk p m a)
    (hread : ∀ x, a ≤ x → x < a + entryBytes → n.read x = m.read x) : slotOk p n a := by
  obtain ⟨e, he, hok⟩ := h
  refine ⟨e, ?_, hok⟩
  rw [← he]
  exact Memory.readBytes_congr entryBytes fun i hi => hread (a + i) (by omega) (by omega)

/-- The entry an APPEND builds from an accepted frame is an entry of the log (43_log.md R133). -/
theorem entryOk_appendEntry {p : Params} {s : State} (h : FrameTagOk p s.cod) (hv : s.cod.fstate = .verified) :
    entryOk p (appendEntry p s) :=
  ⟨timerSample s, s.cod.frame, rfl, h.verified hv⟩

@[simp] theorem appendEntry_length (p : Params) (s : State) : (appendEntry p s).length = entryBytes :=
  logEntry_length p _ _

theorem entryOk.length {p : Params} {e : List Byte} (h : entryOk p e) : e.length = entryBytes := by
  obtain ⟨t, f, rfl, _⟩ := h
  exact logEntry_length p t f

/-- An entry written whole makes its slot one of the log (43_log.md R130). -/
theorem slotOk_writeBytes {p : Params} {e : List Byte} (h : entryOk p e) (m : Memory) (a : Nat) :
    slotOk p (m.writeBytes a e) a :=
  ⟨e, h.length ▸ Memory.readBytes_writeBytes e a m, h⟩

/-- The log stands as long as the region keeps its form and every byte below CURSOR, whatever happens at and above it
(43_log.md R137). -/
theorem LogOk.withFlash {p : Params} {l : Log} (h : LogOk p l) {m : Memory} {ph : Phase} (hwf : m.wf)
    (hin : ∀ c ∈ m, c.1 < p.logCapacity.val) (hread : ∀ a < l.cursor.toNat, m.read a = l.flash.read a)
    (hph : phaseOk p { l with flash := m, phase := ph }) : LogOk p { l with flash := m, phase := ph } where
  aligned := h.aligned
  inside := h.inside
  flashWf := hwf
  flashInside := hin
  entries := fun k hk => slotOk_congr (h.entries k hk) fun x _ hx => hread x (by
    rw [← Nat.mul_succ] at hx
    exact lt_of_lt_of_le hx hk)
  phase := hph

/-- Only PHASE moves. -/
theorem LogOk.withPhase {p : Params} {l : Log} (h : LogOk p l) {ph : Phase} (hph : phaseOk p { l with phase := ph }) :
    LogOk p { l with phase := ph } :=
  h.withFlash h.flashWf h.flashInside (fun _ _ => rfl) hph

/-- A write of `e` that is reported `ok` (20_memory.md R47). -/
theorem LogOk.writeBytes {p : Params} {l : Log} (h : LogOk p l) {e : List Byte} {ph : Phase}
    (hfits : l.cursor.toNat + e.length ≤ p.logCapacity.val)
    (hph : phaseOk p { l with flash := l.flash.writeBytes l.cursor.toNat e, phase := ph }) :
    LogOk p { l with flash := l.flash.writeBytes l.cursor.toNat e, phase := ph } := by
  refine h.withFlash (Memory.wf_writeBytes e _ h.flashWf) (fun c hc => ?_)
    (fun a ha => Memory.read_writeBytes_outside e _ (.inl ha)) hph
  rcases Memory.mem_writeBytes hc with ⟨_, hlt⟩ | hc
  · omega
  · exact h.flashInside c hc

/-- A write of `e` at CURSOR that fails or is cut off (20_memory.md R47, 43_log.md R134, R136). -/
theorem LogOk.torn {p : Params} {l : Log} (h : LogOk p l) {e : List Byte} (q : Draws TornByte)
    (hfits : l.cursor.toNat + e.length ≤ p.logCapacity.val) :
    LogOk p { l with flash := (tearBytes l.flash l.cursor.toNat e q).1, phase := .idle } := by
  refine h.withFlash (tearBytes_wf e _ q h.flashWf) (fun c hc => ?_)
    (fun a ha => tearBytes_read_outside e _ q (.inl ha)) trivial
  rcases tearBytes_mem hc with ⟨_, hlt⟩ | hc
  · omega
  · exact h.flashInside c hc

/-- CURSOR moves past a slot that holds an entry (43_log.md R135). -/
theorem LogOk.advance {p : Params} {l : Log} (h : LogOk p l) {new : Word}
    (hfits : l.cursor.toNat + entryBytes ≤ p.logCapacity.val) (hslot : slotOk p l.flash l.cursor.toNat)
    (hnew : new.toNat = l.cursor.toNat + entryBytes) : LogOk p { cursor := new, phase := .idle, flash := l.flash } where
  aligned := by
    rw [hnew, Nat.add_mod_right]
    exact h.aligned
  inside := hnew ▸ hfits
  flashWf := h.flashWf
  flashInside := h.flashInside
  entries := fun k hk => by
    have haligned := h.aligned
    rw [hnew] at hk
    rcases Nat.lt_or_ge l.cursor.toNat (entryBytes * (k + 1)) with hlt | hle
    · have : entryBytes * k = l.cursor.toNat := by
        simp only [entryBytes] at *
        omega
      exact this ▸ hslot
    · exact h.entries k hle
  phase := trivial

/-- A log without entries: CURSOR at 0 over any region of the right form (43_log.md R140). -/
theorem logOk_rewound {p : Params} {m : Memory} {ph : Phase} (hwf : m.wf) (hin : ∀ c ∈ m, c.1 < p.logCapacity.val)
    (hph : phaseOk p { cursor := 0#32, phase := ph, flash := m }) :
    LogOk p { cursor := 0#32, phase := ph, flash := m } where
  aligned := rfl
  inside := Nat.zero_le _
  flashWf := hwf
  flashInside := hin
  entries := fun k hk => absurd hk (by simp [entryBytes])
  phase := hph

/-- An erase that fails or is cut off, with CURSOR rewound (20_memory.md R48, 43_log.md R140, R141). -/
theorem LogOk.eraseTorn {p : Params} {l : Log} (h : LogOk p l) (q : Draws TornByte) :
    LogOk p { cursor := 0#32, phase := .idle, flash := (tearBytes l.flash 0 (erasedRegion p) q).1 } := by
  refine logOk_rewound (tearBytes_wf _ 0 q h.flashWf) (fun c hc => ?_) trivial
  rcases tearBytes_mem hc with ⟨_, hlt⟩ | hc
  · simpa using hlt
  · exact h.flashInside c hc

theorem logOk_ofBytes {p : Params} {bs : List Byte} (h : bs.length ≤ p.logCapacity.val) :
    LogOk p { cursor := 0#32, phase := .idle, flash := Memory.ofBytes 0 bs } :=
  logOk_rewound (Memory.wf_ofBytes bs 0) (fun c hc => by have := Memory.mem_ofBytes hc; omega) trivial

/-- The log at every moment of an APPEND of an accepted frame (43_log.md R130, R136, R137). -/
theorem AppendLog.logOk {p : Params} {s : State} {l : Log} (h : AppendLog p s l) (hlog : LogOk p s.log)
    (hframe : FrameTagOk p s.cod) : LogOk p l := by
  cases h with
  | same => exact hlog
  | writing verified fits => exact hlog.withPhase ⟨entryOk_appendEntry hframe verified, fits⟩
  | failed verified fits => exact hlog.torn _ (by simpa using fits)
  | written verified fits =>
    exact hlog.writeBytes (by simpa using fits)
      ⟨slotOk_writeBytes (entryOk_appendEntry hframe verified) _ _, fits⟩
  | advanced verified fits =>
    have hslot := slotOk_writeBytes (entryOk_appendEntry hframe verified) s.log.flash s.log.cursor.toNat
    have hwritten := hlog.writeBytes (e := appendEntry p s) (ph := .idle) (by simpa using fits) trivial
    exact hwritten.advance fits hslot (nextCursor_toNat s fits)

/-- The log at every moment of an ERASE (43_log.md R139 to R141). -/
theorem EraseLog.logOk {p : Params} {s : State} {l : Log} (h : EraseLog p s l) (hlog : LogOk p s.log) :
    LogOk p l := by
  cases h with
  | same => exact hlog
  | rewinding => exact hlog.withPhase trivial
  | rewound => exact logOk_rewound hlog.flashWf hlog.flashInside rfl
  | erased => exact logOk_ofBytes (by simp)
  | failed => exact hlog.eraseTorn _

/-- The log at every moment of a command. -/
theorem LogOk.command {p : Params} {i : Instr} {s : State} (hlog : LogOk p s.log) (hframe : FrameTagOk p s.cod) :
    ∀ x ∈ commandStates p i s, LogOk p x.log := by
  intro x hx
  by_cases ha : i = .append
  · subst ha
    exact (appendStates_effect p s x hx).log.logOk hlog hframe
  · by_cases he : i = .erase
    · subst he
      exact (eraseStates_effect p s x hx).log.logOk hlog
    · rw [(commandStates_other ha he x hx).1]
      exact hlog

/-- What PHASE = A_WRITE says. -/
theorem LogOk.aWrite {p : Params} {l : Log} (h : LogOk p l) {e : List Byte} (hph : l.phase = .aWrite e) :
    entryOk p e ∧ l.cursor.toNat + entryBytes ≤ p.logCapacity.val := by
  simpa [phaseOk, hph] using h.phase

/-- What PHASE = A_COMMIT says. -/
theorem LogOk.aCommit {p : Params} {l : Log} (h : LogOk p l) (hph : l.phase = .aCommit) :
    slotOk p l.flash l.cursor.toNat ∧ l.cursor.toNat + entryBytes ≤ p.logCapacity.val := by
  simpa [phaseOk, hph] using h.phase

/-- What PHASE = E_ERASE says. -/
theorem LogOk.eErase {p : Params} {l : Log} (h : LogOk p l) (hph : l.phase = .eErase) : l.cursor = 0#32 := by
  simpa [phaseOk, hph] using h.phase

/-- A reset on the update of CURSOR, as the log unit stands after it (20_memory.md R52(b)). -/
theorem cutCommit_retained (new : Word) (s : State) :
    ((cutCommit new s).log.cursor = s.log.cursor ∨ (cutCommit new s).log.cursor = new) ∧
      (cutCommit new s).log.flash = s.log.flash := by
  rcases cutCommit_cases new s with e | e <;> rw [e]
  · exact ⟨.inl rfl, rfl⟩
  · exact ⟨.inr rfl, rfl⟩

/-- What a WARM reset retains is a log in good order, whichever sub-step it falls in (43_log.md R136, R137, R141). -/
theorem LogOk.resetMove_warm {p : Params} {s : State} (h : LogOk p s.log) : LogOk p (resetMove p .warm s).log := by
  rw [(Machine.resetMove_warm p s).1]
  have hidle : LogOk p { s.log with phase := .idle } := h.withPhase trivial
  cases hph : s.log.phase with
  | idle =>
    rw [cutLog_idle hph]
    exact hidle
  | aWrite e =>
    obtain ⟨hok, hfits⟩ := h.aWrite hph
    simp only [cutLog, hph]
    exact h.torn _ (hok.length.symm ▸ hfits)
  | aCommit =>
    obtain ⟨hslot, hfits⟩ := h.aCommit hph
    obtain ⟨hcursor, hflash⟩ := cutCommit_retained (nextCursor s) s
    simp only [cutLog, hph, hflash]
    rcases hcursor with e | e <;> rw [e]
    · exact hidle
    · exact h.advance hfits hslot (nextCursor_toNat s hfits)
  | eCommit =>
    obtain ⟨hcursor, hflash⟩ := cutCommit_retained 0#32 s
    simp only [cutLog, hph, hflash]
    rcases hcursor with e | e <;> rw [e]
    · exact hidle
    · exact logOk_rewound h.flashWf h.flashInside trivial
  | eErase =>
    simp only [cutLog, hph, tearFlash_cursor, tearFlash_flash, h.eErase hph]
    exact h.eraseTorn _

/-- After either reset the log is in good order (43_log.md R137, 70_reset_and_hazards.md R196). -/
theorem LogOk.reset {p : Params} {s : State} (h : LogOk p s.log) (k : ResetKind) : LogOk p (resetMove p k s).log := by
  cases k with
  | warm => exact h.resetMove_warm
  | cold contents => exact logOk_ofBytes (List.length_take_le _ _)

/-! ## The whole block -/

/-- The invariant of the block, but for what it says of the port: kept by every move, those that end in the middle of a
transaction among them. -/
structure BlockOk (p : Params) (s : State) : Prop where
  rc : s.sys.rc.toNat ≤ 10
  motion : MotionOk p s.mot
  codec : CodecOk p s.cod
  log : LogOk p s.log

theorem inv_iff_blockOk (p : Params) (s : State) :
    Inv p s ↔ BlockOk p s ∧ (s.port.status ≠ .outstanding → s.log.phase = .idle) :=
  ⟨fun h => ⟨⟨h.rc, h.motion, ⟨h.frameTag, h.identity⟩, h.log⟩, h.phaseIdle⟩,
    fun ⟨h, hidle⟩ => ⟨h.rc, h.motion, h.codec.identity, h.codec.frameTag, h.log, hidle⟩⟩

theorem rcReturned.le {s x : State} (h : rcReturned s x) (hs : s.sys.rc.toNat ≤ 10) : x.sys.rc.toNat ≤ 10 := by
  rcases h with e | ⟨code, e⟩ <;> rw [e]
  · exact hs
  · exact code.number_le

/-- A write of a register never touches RC (20_memory.md R44). -/
theorem writeReg_rc {r : Reg} {w : Word} {s t : State} (h : writeReg r w s = some t) : t.sys.rc = s.sys.rc := by
  cases r <;> simp only [writeReg, reduceCtorEq, Option.some.injEq] at h
  case uid i =>
    split at h
    · cases h
    · cases h
      rfl
  all_goals
    cases h
    rfl

theorem rc_stepClosed (p : Params) : StepClosed p (fun s => s.sys.rc.toNat ≤ 10) where
  port := fun _ _ h => h
  store := fun _ _ h => h
  illegal := fun s h => (rcReturned_ret .errIllegal 0#32 s s).le h
  write := fun _ _ _ _ h hw => writeReg_rc hw ▸ h
  command := fun i s h x hx => (commandStates_rc p i s x hx).le h
  reset := fun k s _ => by cases k <;> exact Nat.zero_le _

theorem blockOk_stepClosed (p : Params) : StepClosed p (BlockOk p) where
  port := fun _ _ h => ⟨h.rc, h.motion, h.codec, h.log⟩
  store := fun _ _ h => ⟨h.rc, h.motion, h.codec, h.log⟩
  illegal := fun s h => ⟨(rc_stepClosed p).illegal s h.rc, h.motion, h.codec, h.log⟩
  write := fun r w s t h hw =>
    ⟨(rc_stepClosed p).write r w s t h.rc hw, (motionOk_stepClosed p).write r w s t h.motion hw, h.codec.write hw,
      (writeReg_frame hw).1 ▸ h.log⟩
  command := fun i s h x hx =>
    ⟨(rc_stepClosed p).command i s h.rc x hx, (motionOk_stepClosed p).command i s h.motion x hx,
      h.codec.command x hx, h.log.command h.codec.frameTag x hx⟩
  reset := fun k s h =>
    ⟨(rc_stepClosed p).reset k s h.rc, (motionOk_stepClosed p).reset k s h.motion,
      (codecOk_stepClosed p).reset k s h.codec, h.log.reset k⟩

theorem resetMove_phase (p : Params) (k : ResetKind) (s : State) : (resetMove p k s).log.phase = .idle := by
  cases k <;> rfl

/-- A transaction run whole ends outside every sub-step of the log unit (10_state.md R38). -/
theorem transact_phase_idle {p : Params} {r : Request} {s t : State} (h : transact p (execIn p) r s = .next t)
    (hs : s.log.phase = .idle) : t.log.phase = .idle := by
  obtain ⟨a, x, rfl, hx⟩ := transact_cases h
  rcases hx with rfl | ⟨r, w, hw⟩ | ⟨w, rfl⟩ | ⟨w, i, _, _, hx⟩
  · exact hs
  · exact (congrArg Log.phase (writeReg_frame hw).1).trans hs
  · exact hs
  · show x.log.phase = .idle
    exact execIn_phase_idle hx hs

/-- After every step, PHASE is IDLE unless a transaction is in flight (10_state.md R38). -/
theorem stepIn_phase_idle {p : Params} {s t : State} (hs : s.port.status ≠ .outstanding → s.log.phase = .idle)
    (h : stepIn p s = .next t) : t.port.status ≠ .outstanding → t.log.phase = .idle := by
  rcases stepWith_cases p (execIn p) s with ⟨_, e⟩ | ⟨e, rest, _, he⟩
  · cases e.symm.trans h
    exact hs
  · have h := he.symm.trans h
    cases e with
    | reset k =>
      cases h
      exact fun _ => resetMove_phase p k _
    | begun r n =>
      obtain ⟨_, rfl⟩ := takeEvent_begun_next h
      exact fun hfree => absurd rfl hfree
    | request r =>
      obtain ⟨hfree, ht⟩ := takeEvent_request_next h
      exact fun _ => transact_phase_idle ht (hs hfree)

/-- Settles O60: every move keeps the block, and no step but one that leaves a transaction in flight ends inside a
sub-step of the log unit. -/
theorem stepKeepsTheInvariantInEveryConfiguration : Obligations.StepKeepsTheInvariantInEveryConfiguration := by
  intro p s t hs h
  obtain ⟨hblock, hidle⟩ := (inv_iff_blockOk p s).1 hs
  exact (inv_iff_blockOk p t).2 ⟨(blockOk_stepClosed p).step hblock h, stepIn_phase_idle hidle h⟩

/-! ## CURSOR -/

/-- At every moment of an APPEND the cursor stands where it stood or one entry further (43_log.md R135). -/
theorem AppendLog.cursor {p : Params} {s : State} {l : Log} (h : AppendLog p s l) :
    l.cursor = s.log.cursor ∨ l.cursor.toNat = s.log.cursor.toNat + entryBytes := by
  cases h with
  | same => exact .inl rfl
  | writing _ _ => exact .inl rfl
  | failed _ _ => exact .inl rfl
  | written _ _ => exact .inl rfl
  | advanced _ fits => exact .inr (nextCursor_toNat s fits)

/-- At every moment of a command but ERASE the cursor stands where it stood or one entry further. -/
theorem commandStates_cursor {p : Params} {i : Instr} {s : State} (hi : i ≠ .erase) : ∀ x ∈ commandStates p i s,
    x.log.cursor = s.log.cursor ∨ x.log.cursor.toNat = s.log.cursor.toNat + entryBytes := by
  intro x hx
  by_cases ha : i = .append
  · subst ha
    exact (appendStates_effect p s x hx).log.cursor
  · rw [(commandStates_other ha hi x hx).1]
    exact .inl rfl

/-- A WARM reset keeps the cursor, or completes the update of an APPEND it falls on (43_log.md R136). -/
theorem resetMove_warm_cursor {p : Params} {s : State} (h : LogOk p s.log) (hph : s.log.phase ≠ .eCommit) :
    (resetMove p .warm s).log.cursor = s.log.cursor ∨
      (resetMove p .warm s).log.cursor.toNat = s.log.cursor.toNat + entryBytes := by
  rw [(resetMove_warm p s).1]
  cases hp : s.log.phase with
  | idle =>
    rw [cutLog_idle hp]
    exact .inl rfl
  | aWrite e =>
    simp only [cutLog, hp]
    exact .inl rfl
  | aCommit =>
    simp only [cutLog, hp]
    refine (cutCommit_retained (nextCursor s) s).1.imp id fun e => ?_
    rw [e]
    exact nextCursor_toNat s (h.aCommit hp).2
  | eCommit => exact absurd hp hph
  | eErase =>
    simp only [cutLog, hp]
    exact .inl rfl

/-- The command of a write to CMD (30_encoding.md R61). -/
theorem commandOf_write_cmd {w : Word} {i : Instr} (h : decode w = .ok i) : commandOf (.write 0x00#8 w) = some i := by
  simp [commandOf, numberOfReg, h]

/-- An event that is no ERASE and no COLD reset leaves the cursor where it stood or one entry further
(10_state.md R39, I-CUR3). -/
theorem takeEvent_cursor {p : Params} {e : Event} {s t : State} (hlog : LogOk p s.log)
    (hkeeps : keepsLog e = true) (hph : s.log.phase ≠ .eCommit) (h : takeEvent p (execIn p) e s = .next t) :
    t.log.cursor = s.log.cursor ∨ t.log.cursor.toNat = s.log.cursor.toNat + entryBytes := by
  cases e with
  | reset k =>
    cases k with
    | warm =>
      cases h
      exact resetMove_warm_cursor hlog hph
    | cold contents => cases hkeeps
  | begun r n =>
    have hr : commandOf r ≠ some .erase := of_decide_eq_true hkeeps
    obtain ⟨_, rfl⟩ := takeEvent_begun_next h
    obtain ⟨x, hx, hin⟩ := stateInside_mem p r n s
    rw [hin, leaveOutstanding_log]
    rcases hx with rfl | hx
    · exact .inl rfl
    · refine forall_requestStates p
        (fun x => x.log.cursor = s.log.cursor ∨ x.log.cursor.toNat = s.log.cursor.toNat + entryBytes) r s
        (.inl rfl) ?_ (fun w => ⟨.inl rfl, .inl rfl⟩)
        (fun r w t hw => .inl (congrArg Log.cursor (writeReg_frame hw).1)) x hx
      rintro w i rfl hd
      exact commandStates_cursor fun hi => hr (hi ▸ commandOf_write_cmd hd)
  | request r =>
    have hr : commandOf r ≠ some .erase := of_decide_eq_true hkeeps
    obtain ⟨_, ht⟩ := takeEvent_request_next h
    obtain ⟨a, x, rfl, hx⟩ := transact_cases ht
    rw [giveAnswer_log]
    rcases hx with rfl | ⟨r, w, hw⟩ | ⟨w, rfl⟩ | ⟨w, i, rfl, hd, hx⟩
    · exact .inl rfl
    · exact .inl (congrArg Log.cursor (writeReg_frame hw).1)
    · exact .inl rfl
    · exact commandStates_cursor (s := setCmd w s) (fun hi => hr (hi ▸ commandOf_write_cmd hd)) x
        (execIn_mem_commandStates hx)

/-- Settles O43: APPEND alone moves the cursor, by one entry, and a WARM reset at most completes that move. -/
theorem cursorAdvancesByWholeEntries : Obligations.CursorAdvancesByWholeEntries := by
  intro s t e rest hinv h hkeeps hph
  rw [step_pending, exec_eq_execIn] at h
  exact takeEvent_cursor (s := { s with port.inbox := rest }) hinv.log hkeeps hph h

/-! ## Reset -/

/-- The first power-up meets the invariant, in every configuration (10_state.md R39). -/
theorem inv_resetIn (p : Params) : Inv p (resetIn p) :=
  (inv_iff_blockOk p _).2
    ⟨⟨Nat.zero_le _, motionOk_initial p, codecOk_initial p, logOk_ofBytes (bs := []) (Nat.zero_le _)⟩, fun _ => rfl⟩

/-- The first power-up stands as a WARM reset of itself would leave it. -/
theorem volatileAtReset_resetIn (p : Params) : volatileAtReset p (resetIn p) :=
  resetMove_volatile p .warm (resetIn p)

/-- A reset leaves the port quiet, and the events still to come (70_reset_and_hazards.md R197). -/
theorem resetMove_port (p : Params) (k : ResetKind) (s : State) :
    (resetMove p k s).port = { inbox := s.port.inbox, status := .quiet } := by
  cases k with
  | warm => exact (resetMove_warm p s).2
  | cold contents => rfl

/-- The invariant says nothing of the events still to come. -/
theorem Inv.pending {p : Params} {s : State} (h : Inv p s) (e : Event) (rest : List Event) :
    Inv p (Machine.pending e rest s) :=
  ⟨h.rc, h.motion, h.identity, h.frameTag, h.log, h.phaseIdle⟩

/-- Settles O58: a reset is a step, which keeps the invariant, and clears the volatile domain and the port. -/
theorem resetsInEveryConfiguration : Obligations.ResetsInEveryConfiguration := by
  refine fun p => ⟨⟨inv_resetIn p, volatileAtReset_resetIn p, rfl⟩, fun s k rest h => ?_⟩
  have hstep : stepIn p (pending (.reset k) rest s) = .next (resetMove p k { s with port.inbox := rest }) := rfl
  exact ⟨_, hstep, stepKeepsTheInvariantInEveryConfiguration p _ _ (h.pending _ _) hstep, resetMove_volatile p k _,
    resetMove_port p k _⟩

/-- Settles O52: the case of the default configuration. -/
theorem resetMeetsTheInvariant : Obligations.ResetMeetsTheInvariant :=
  ⟨inv_resetIn Config.params, volatileAtReset_resetIn Config.params, rfl, rfl, rfl⟩

/-! ## The register map -/

/-- Every register is named by its number (10_state.md R10). -/
theorem regOfNumber_numberOfReg (r : Reg) : regOfNumber (numberOfReg r) = some r := by
  cases r
  case uid i => fin_cases i <;> rfl
  case f i => fin_cases i <;> rfl
  all_goals rfl

/-- A number that names a register is that register's number (10_state.md R10). -/
theorem eq_numberOfReg {rn : Byte} {r : Reg} (h : regOfNumber rn = some r) : rn = numberOfReg r := by
  apply BitVec.eq_of_toNat_eq
  unfold regOfNumber at h
  split at h <;> cases h <;> assumption

/-- The numbers that name no register (20_memory.md R43): those of no row of the decoder. -/
theorem regOfNumber_eq_none_iff (rn : Byte) :
    regOfNumber rn = none ↔
      rn.toNat = 0x13 ∨ (0x19 ≤ rn.toNat ∧ rn.toNat ≤ 0x1B) ∨ rn.toNat = 0x1E ∨ rn.toNat = 0x1F ∨ 0x28 ≤ rn.toNat := by
  unfold regOfNumber
  split
  case h_35 =>
    simp only [imp_false, true_iff] at *
    omega
  all_goals
    simp only [reduceCtorEq, false_iff]
    omega

/-- Settles O12: the rows by the definition, the two directions of the map, and the numbers that name none. -/
theorem registerNumbersAreTheMap : Obligations.RegisterNumbersAreTheMap :=
  ⟨by decide, fun r _ => ⟨eq_numberOfReg, fun h => h ▸ regOfNumber_numberOfReg r⟩, regOfNumber_eq_none_iff⟩

/-! ## The frame window -/

/-- A read of a register on a free port (20_memory.md R41). -/
theorem step_read {s : State} (rest : List Event) (r : Reg) (h : s.port.status ≠ .outstanding) :
    step (pending (.request (.read (numberOfReg r))) rest s) =
      .next (answeredWith (goodAnswer (readReg Config.params r s)) rest s) := by
  refine (takeEvent_request _ _ _ { s with port.inbox := rest } h).trans ?_
  simp only [transact, readAnswer, regOfNumber_numberOfReg]
  cases r <;> rfl

/-- A write of a register other than CMD on a free port (20_memory.md R42). -/
theorem step_write {s : State} (rest : List Event) {r : Reg} (w : Word) (hr : r ≠ .cmd)
    (h : s.port.status ≠ .outstanding) :
    step (pending (.request (.write (numberOfReg r) w)) rest s) =
      .next (storeRegister r w { s with port.inbox := rest }) := by
  refine (takeEvent_request _ _ _ { s with port.inbox := rest } h).trans ?_
  simp only [transact, regOfNumber_numberOfReg]

/-- The byte `j` of FRAME after `w` has been written to `F_i` (10_state.md R27). -/
theorem setFrameWord_getElem (i : Fin 5) (w : Word) (f : Frame) (j : Nat) (hj : j < 20) :
    (setFrameWord i w f)[j] =
      if 4 * i.val + 3 = j then w.extractLsb' 0 8
      else if 4 * i.val + 2 = j then w.extractLsb' 8 8
      else if 4 * i.val + 1 = j then w.extractLsb' 16 8
      else if 4 * i.val = j then w.extractLsb' 24 8
      else f[j] := by
  simp only [setFrameWord, Vector.getElem_set]

/-- What is written to `F_i` is read from it (10_state.md R27, 00_scope.md R6). -/
theorem frameWord_setFrameWord (i : Fin 5) (w : Word) (f : Frame) : frameWord i (setFrameWord i w f) = w := by
  have hbytes : frameWord i (setFrameWord i w f) =
      packWord (w.extractLsb' 24 8) (w.extractLsb' 16 8) (w.extractLsb' 8 8) (w.extractLsb' 0 8) := by
    simp [frameWord, setFrameWord_getElem]
  apply BitVec.eq_of_toNat_eq
  rw [hbytes, packWord_toNat, word_bytes]

/-- The bytes outside the window of `F_i` stay (10_state.md R27). -/
theorem setFrameWord_outside {i : Fin 5} (w : Word) (f : Frame) {j : Fin 20} (h : j.val / 4 ≠ i.val) :
    (setFrameWord i w f)[j] = f[j] := by
  simp only [Fin.getElem_fin, setFrameWord_getElem]
  rw [if_neg (by omega), if_neg (by omega), if_neg (by omega), if_neg (by omega)]

/-- Settles O16: the port's rules for a read and a write, and the laws of the window. -/
theorem frameWindow : Obligations.FrameWindow := by
  refine fun s rest i h => ⟨step_read rest (.f i) h, packWord_toNat _ _ _ _, fun w => ?_⟩
  refine ⟨setFrameWord i w s.cod.frame, step_write rest (r := .f i) w nofun h, ?_, fun j => setFrameWord_outside w _⟩
  have hread := congrArg BitVec.toNat (frameWord_setFrameWord i w s.cod.frame)
  rwa [frameWord, packWord_toNat] at hread

/-! ## STATUS -/

/-- Each bit of STATUS (10_state.md R17). -/
theorem statusWord_getLsbD (p : Params) (s : State) (n : Nat) :
    (statusWord p s).getLsbD n =
      if n = 0 then moving s
      else if n = 1 then s.mot.warm
      else if n = 2 then s.cod.idValid
      else if n = 4 then s.cod.fstate.number.getLsbD 0
      else if n = 5 then s.cod.fstate.number.getLsbD 1
      else if n = 8 then logFull p s
      else false := by
  refine BitVec.getLsbD_append.trans ?_
  simp only [BitVec.getLsbD_append, BitVec.getLsbD_ofBool, BitVec.getLsbD_zero]
  by_cases h : n < 9
  · interval_cases n <;> rfl
  · obtain ⟨m, rfl⟩ := Nat.exists_eq_add_of_le' (Nat.le_of_not_lt h)
    simp

/-- The field FSTATE of STATUS, bits 5:4 (10_state.md R17, R28). -/
theorem statusWord_fstate (p : Params) (s : State) : (statusWord p s).extractLsb' 4 2 = s.cod.fstate.number := by
  ext i hi
  rw [BitVec.getElem_extractLsb', statusWord_getLsbD]
  interval_cases i <;> rfl

/-- After either reset only LOGFULL can be set in STATUS (10_state.md R17, R39). -/
theorem statusWord_resetMove (p : Params) (k : ResetKind) (s : State) :
    statusWord p (resetMove p k s) = if logFull p (resetMove p k s) then 0x00000100#32 else 0x00000000#32 := by
  have hword : statusWord p (resetMove p k s) =
      0#23 ++ BitVec.ofBool (logFull p (resetMove p k s)) ++ 0#2 ++ 0#2 ++ 0#1 ++ 0#1 ++ 0#1 ++ 0#1 := by
    cases k <;> rfl
  rw [hword]
  cases logFull p (resetMove p k s) <;> rfl

/-- LOGFULL is clear where the cursor stands at 0 and the region has room for an entry (10_state.md R13). -/
theorem logFull_eq_false {p : Params} {s : State} (hcursor : s.log.cursor = 0#32)
    (hroom : entryBytes ≤ p.logCapacity.val) : logFull p s = false := by
  simpa [logFull, hcursor] using hroom

/-- Settles O18: the bits by the law of the word, the reading after a reset by its reset value, and the refused write by
the port's rule for a register that no write stores to. -/
theorem statusBits : Obligations.StatusBits := by
  intro s
  have hbit : ∀ n, (readReg Config.params .status s).getLsbD n = _ := statusWord_getLsbD Config.params s
  refine ⟨?_, hbit 1, hbit 2, ?_, ?_, ?_, ?_, ?_⟩
  · rw [hbit 0]
    exact decide_eq_true_iff
  · have h := congrArg BitVec.toNat (statusWord_fstate Config.params s)
    rw [BitVec.extractLsb'_toNat, Nat.shiftRight_eq_div_pow] at h
    refine h.trans ?_
    cases s.cod.fstate <;> rfl
  · rw [hbit 8]
    exact decide_eq_true_iff
  · intro n hn
    rw [hbit n]
    repeat rw [if_neg (by omega)]
  · intro k rest t ht hcursor hroom
    cases ht
    exact (statusWord_resetMove Config.params k _).trans (by rw [logFull_eq_false hcursor hroom]; rfl)
  · intro w rest h
    exact step_write rest w (r := .status) nofun h

end Sys2Proof.Machine
end

section
/-! PROOF. The host port and the memories behind it (20_memory.md): a reset inside a transaction that is no log command (R53),
the tuples of the port (R45), and what a read and a write answer and change (R41 to R44). -/

namespace Sys2Proof.Machine

/-! ## A reset inside a transaction -/

/-- A transaction that issues neither APPEND nor ERASE leaves the log unit alone at every moment (20_memory.md R53). -/
theorem requestStates_log {r : Request} (happend : commandOf r ≠ some .append) (herase : commandOf r ≠ some .erase)
    (p : Params) (s : State) : ∀ x ∈ requestStates p r s, x.log = s.log := by
  refine forall_requestStates p (fun x => x.log = s.log) r s rfl ?_ (fun _ => ⟨rfl, rfl⟩)
    (fun _ _ _ h => (writeReg_frame h).1)
  intro w i hr hd x hx
  rw [hr, commandOf_write_cmd hd] at happend herase
  exact (commandStates_other (mt (congrArg some) happend) (mt (congrArg some) herase) x hx).1

/-- What stands inside such a transaction has the log unit that stood before it (20_memory.md R53). -/
theorem stateInside_log {r : Request} (happend : commandOf r ≠ some .append) (herase : commandOf r ≠ some .erase)
    (p : Params) (n : Nat) (s : State) : (stateInside p r n s).log = s.log := by
  obtain ⟨x, hx, e⟩ := stateInside_mem p r n s
  rw [e, leaveOutstanding_log]
  exact hx.elim (congrArg State.log) (requestStates_log happend herase p s x)

/-- Between log commands a reset sees nothing of a state but its log unit, the events still to come, and the draws, which it
leaves (70_reset_and_hazards.md R195, R196). -/
theorem resetMove_congr {p : Params} (k : ResetKind) {x s : State} (hlog : x.log = s.log)
    (hinbox : x.port.inbox = s.port.inbox) (hidle : s.log.phase = .idle) :
    resetMove p k x = { resetMove p k s with env := x.env } := by
  cases k with
  | warm =>
    have hidle' : x.log.phase = .idle := hlog ▸ hidle
    simp only [resetMove, cutLog_idle hidle, cutLog_idle hidle', volatileReset, hlog, hinbox]
  | cold contents => simp only [resetMove, volatileReset, hinbox]

/-- Between log commands a WARM reset keeps the cursor and the flash region (70_reset_and_hazards.md R195). -/
theorem resetMove_warm_idle {p : Params} {s : State} (h : s.log.phase = .idle) :
    (resetMove p .warm s).log.cursor = s.log.cursor ∧ (resetMove p .warm s).log.flash = s.log.flash := by
  rw [(resetMove_warm p s).1, cutLog_idle h]
  exact ⟨rfl, rfl⟩

/-- A reset that is the next event happens, whatever the port is doing (70_reset_and_hazards.md R197). -/
theorem step_reset {s : State} {k : ResetKind} {rest : List Event} (h : s.port.inbox = .reset k :: rest) :
    step s = .next (resetMove Config.params k { s with port.inbox := rest }) := by
  simp only [step, stepWith, h, takeEvent]

/-- Where `x` has the log unit of `s`, between log commands, a reset in `x` leaves what it leaves of `s`, but the draws
(70_reset_and_hazards.md R195, R196). -/
theorem step_reset_of_log_eq {s x : State} {k : ResetKind} {rest : List Event} (hlog : x.log = s.log)
    (hinbox : x.port.inbox = .reset k :: rest) (hidle : s.log.phase = .idle) :
    step x = .next { resetMove Config.params k { s with port.inbox := rest } with env := x.env } :=
  (step_reset hinbox).trans (congrArg _ (resetMove_congr k hlog rfl hidle))

/-- A transaction begun on a free port (70_reset_and_hazards.md R197). -/
theorem step_begun {s : State} (r : Request) (n : Nat) (rest : List Event) (h : s.port.status ≠ .outstanding) :
    step (pending (.begun r n) rest s) = .next (stateInside Config.params r n { s with port.inbox := rest }) :=
  takeEvent_begun Config.params exec r n { s with port.inbox := rest } h

/-- Settles O42: the state inside the transaction has the log unit and the events to come of the state before it, and a
reset sees no more of either. -/
theorem resetInsideOtherLeavesNoTrace : Obligations.ResetInsideOtherLeavesNoTrace := by
  intro s r n k rest hport hidle happend herase
  have hlog := stateInside_log happend herase Config.params n (pending (.reset k) rest s)
  have hinbox := congrArg Port.inbox (stateInside_port Config.params r n (pending (.reset k) rest s))
  refine ⟨_, _, _, step_begun r n (.reset k :: rest) hport,
    step_reset_of_log_eq (s := s) hlog hinbox hidle, rfl, rfl, rfl, rfl, rfl, rfl, rfl, ?_⟩
  rintro rfl
  exact resetMove_warm_idle (s := { s with port.inbox := rest }) hidle

/-! ## The tuples of the port -/

/-- The low bits of a word as an integer (20_memory.md R42). -/
theorem lowBits_toNat {m : Nat} (n : Nat) (w : BitVec m) : (w.extractLsb' 0 n).toNat = w.toNat % 2 ^ n := by
  rw [BitVec.extractLsb'_toNat, Nat.shiftRight_zero]

/-- The 41 bits of a request tuple as an integer (20_memory.md R45). -/
theorem requestTuple_toNat (we : BitVec 1) (rn : Byte) (w : Word) :
    (we ++ rn ++ w).toNat = we.toNat * 2 ^ 40 + rn.toNat * 2 ^ 32 + w.toNat := by
  have := rn.isLt
  have := w.isLt
  rw [BitVec.toNat_append, BitVec.toNat_append, ← Nat.shiftLeft_add_eq_or_of_lt (by omega),
    ← Nat.shiftLeft_add_eq_or_of_lt (by omega), Nat.shiftLeft_eq, Nat.shiftLeft_eq]
  omega

/-- The fields of a request tuple are read back from their places (20_memory.md R45). -/
theorem requestOfBits_append (we : BitVec 1) (rn : Byte) (w : Word) :
    requestOfBits (we ++ rn ++ w) = if we = 1#1 then .write rn w else .read rn := by
  have := rn.isLt
  have := w.isLt
  have hrn : (we ++ rn ++ w).extractLsb' 32 8 = rn := by
    apply BitVec.eq_of_toNat_eq
    rw [BitVec.extractLsb'_toNat, requestTuple_toNat, Nat.shiftRight_eq_div_pow]
    omega
  have hw : (we ++ rn ++ w).extractLsb' 0 32 = w := by
    apply BitVec.eq_of_toNat_eq
    rw [lowBits_toNat, requestTuple_toNat]
    omega
  have hwe : (we ++ rn ++ w).getLsbD 40 = we.getLsbD 0 := by
    rw [BitVec.getLsbD_append, BitVec.getLsbD_append]
    rfl
  rw [requestOfBits, hrn, hw, hwe]
  rcases BitVec.eq_zero_or_eq_one we with h | h <;> subst h <;> rfl

/-- The tuple that a number below `2 ^ 41` writes in its three fields (20_memory.md R45). -/
theorem requestTuple_ofNat (we : BitVec 1) (rn : Byte) (w : Word) :
    BitVec.ofNat 41 (we.toNat * 2 ^ 40 + rn.toNat * 2 ^ 32 + w.toNat) = we ++ rn ++ w := by
  rw [← requestTuple_toNat, BitVec.ofNat_toNat, BitVec.setWidth_eq]

/-- The 33 bits of an answer tuple as an integer (20_memory.md R45). -/
theorem answerBits_toNat (a : Answer) : (answerBits a).toNat = (if a.err then 2 ^ 32 else 0) + a.rdata.toNat := by
  have := a.rdata.isLt
  rw [answerBits, BitVec.toNat_append, ← Nat.shiftLeft_add_eq_or_of_lt this, Nat.shiftLeft_eq]
  cases a.err <;> rfl

/-- An answer is read back from its tuple (20_memory.md R45). -/
theorem answerOfBits_answerBits (a : Answer) : answerOfBits (answerBits a) = a := by
  have hrdata : (answerBits a).extractLsb' 0 32 = a.rdata := by
    have := a.rdata.isLt
    apply BitVec.eq_of_toNat_eq
    rw [lowBits_toNat, answerBits_toNat]
    split <;> omega
  have herr : (answerBits a).getLsbD 32 = a.err := by
    rw [answerBits, BitVec.getLsbD_append]
    exact BitVec.getLsbD_ofBool a.err 0
  rw [answerOfBits, hrdata, herr]

/-- Settles O4: the fields are read back from their places, whatever stands in the ignored one, and the tuples are the
integers R45 writes. -/
theorem portTuplesRoundTrip : Obligations.PortTuplesRoundTrip := by
  refine ⟨fun r => ?_, answerOfBits_answerBits, fun rn w => ?_, fun rn w => ?_, fun rn w => ?_,
    fun e w => answerBits_toNat ⟨e, w⟩, fun rn => ?_⟩
  · cases r with
    | read rn => exact requestOfBits_append 0#1 rn 0#32
    | write rn w => exact requestOfBits_append 1#1 rn w
  · have h := requestTuple_ofNat 0#1 rn w
    simp only [BitVec.toNat_ofNat, Nat.zero_mod, Nat.zero_mul, Nat.zero_add] at h
    rw [h]
    exact requestOfBits_append 0#1 rn w
  · exact (congrArg requestOfBits (requestTuple_ofNat 1#1 rn w)).trans (requestOfBits_append 1#1 rn w)
  · exact requestTuple_toNat 1#1 rn w
  · refine (requestTuple_toNat 0#1 rn 0#32).trans ?_
    simp

/-! ## What a read and a write answer -/

/-- A read answers `(err = 0, value)` and changes nothing but the port (20_memory.md R41). -/
theorem step_read_implemented {s : State} (rest : List Event) {rn : Byte} {r : Reg} (hr : regOfNumber rn = some r)
    (h : s.port.status ≠ .outstanding) :
    step (pending (.request (.read rn)) rest s) =
      .next (answeredWith (goodAnswer (readReg Config.params r s)) rest s) := by
  rw [eq_numberOfReg hr]
  exact step_read rest r h

/-- LOGCAP reads LOG_CAPACITY, which fits in its 32 bits (10_state.md R29, 00_scope.md R3). -/
theorem readReg_logcap_toNat (p : Params) (s : State) : (readReg p .logcap s).toNat = p.logCapacity.val := by
  have := p.logCapacity.isLt
  simp only [readReg, BitVec.toNat_ofNat]
  omega

/-- Settles O11: the port's rule for a read, and widening keeps the value: zero-extension that of the integer without
sign, sign-extension that of the signed one. -/
theorem readsAnswerWidenedRegisters : Obligations.ReadsAnswerWidenedRegisters := by
  have zero {n : Nat} (v : BitVec n) (hn : n ≤ 32) : (v.zeroExtend 32).toNat = v.toNat := BitVec.toNat_setWidth_of_le hn
  have sign (v : Half) : (v.signExtend 32).toInt = v.toInt := BitVec.toInt_signExtend_of_le (by decide)
  intro s rest h
  exact ⟨fun rn r hr => step_read_implemented rest hr h, rfl, zero _ (by decide), rfl, rfl, sign _, sign _, sign _,
    fun _ => rfl, zero _ (by decide), zero _ (by decide), zero _ (by decide), zero _ (by decide), zero _ (by decide),
    zero _ (by decide), zero _ (by decide), rfl, readReg_logcap_toNat _ s, zero _ (by decide), zero _ (by decide),
    rfl, rfl, rfl, rfl, rfl, rfl⟩

/-- Settles O13: such a number names no register, and a transaction with a number that names none is a bus error. -/
theorem unimplementedNumbersAnswerError : Obligations.UnimplementedNumbersAnswerError := by
  intro s rest rn w h hrn
  have hnone : regOfNumber rn = none := (regOfNumber_eq_none_iff rn).2 hrn
  constructor <;> refine (takeEvent_request _ _ _ { s with port.inbox := rest } h).trans ?_
  · simp only [transact, readAnswer, hnone]
    rfl
  · simp only [transact, hnone]
    rfl

/-- The registers that no write stores to (20_memory.md R44). -/
def readOnlyRegs : List Reg :=
  [.rc, .res, .status, .tagid, .cursor, .logcap, .ticks, .pos, .sumx, .sumy, .sumz, .v1, .v2, .seed]

/-- A write to a read-only register is refused in every state (20_memory.md R44). -/
theorem writeReg_readOnly {r : Reg} (hr : r ∈ readOnlyRegs) (w : Word) (s : State) : writeReg r w s = none := by
  fin_cases hr <;> rfl

/-- Once an identity is set a write to a UID register is refused (20_memory.md R44). -/
theorem writeReg_uid_locked (i : Fin 4) (w : Word) {s : State} (h : s.cod.idValid = true) :
    writeReg (.uid i) w s = none :=
  if_pos h

/-- Before that it stores its word (10_state.md R20). -/
theorem writeReg_uid_open (i : Fin 4) (w : Word) {s : State} (h : s.cod.idValid = false) :
    writeReg (.uid i) w s = some { s with cod.uid := s.cod.uid.set i w } :=
  if_neg (by simp [h])

/-- A refused write answers a bus error and changes nothing but the port (20_memory.md R44). -/
theorem step_write_refused {s : State} (rest : List Event) {r : Reg} {w : Word} (hr : r ≠ .cmd)
    (hw : writeReg r w { s with port.inbox := rest } = none) (h : s.port.status ≠ .outstanding) :
    step (pending (.request (.write (numberOfReg r) w)) rest s) = .next (answeredWith busError rest s) := by
  rw [step_write rest w hr h, storeRegister, hw]
  rfl

/-- The number of a UID register as an integer (10_state.md R10). -/
theorem numberOfReg_uid_toNat (i : Fin 4) : (numberOfReg (.uid i)).toNat = 8 + i.val := by
  fin_cases i <;> rfl

/-- 0x08 to 0x0B are the numbers of UID0 to UID3 (10_state.md R10). -/
theorem exists_uid_number {rn : Byte} (hlow : 0x08 ≤ rn.toNat) (hhigh : rn.toNat ≤ 0x0B) :
    ∃ i : Fin 4, rn = numberOfReg (.uid i) := by
  refine ⟨⟨rn.toNat - 8, by omega⟩, BitVec.eq_of_toNat_eq ?_⟩
  rw [numberOfReg_uid_toNat]
  exact (Nat.add_sub_of_le hlow).symm

/-- Settles O14: the listed numbers are those of the read-only registers, 0x08 to 0x0B those of the UID registers, and each
such write is refused. -/
theorem refusedWritesChangeNothing : Obligations.RefusedWritesChangeNothing := by
  intro s rest rn w h hrn
  rcases hrn with hmem | ⟨hlow, hhigh, hlocked⟩
  · have hnumbers : rn.toNat ∈ readOnlyRegs.map (fun r => (numberOfReg r).toNat) := hmem
    obtain ⟨r, hr, hnum⟩ := List.mem_map.1 hnumbers
    rw [← BitVec.eq_of_toNat_eq hnum]
    exact step_write_refused rest (by rintro rfl; simp [readOnlyRegs] at hr) (writeReg_readOnly hr w _) h
  · obtain ⟨i, rfl⟩ := exists_uid_number hlow hhigh
    exact step_write_refused rest nofun (writeReg_uid_locked i w (s := { s with port.inbox := rest }) hlocked) h

/-- Settles O15: what the write of each register stores, with its low bits as an integer. -/
theorem writesStoreLowBits : Obligations.WritesStoreLowBits := by
  intro s rest w h
  refine ⟨⟨{ s with jit.arg := w }, step_write rest w (r := .arg) nofun h, rfl⟩, ⟨w.extractLsb' 0 16, lowBits_toNat 16 w, ?_⟩,
    ⟨w.extractLsb' 0 1, lowBits_toNat 1 w, step_write rest w (r := .txlevel) nofun h⟩,
    ⟨w.extractLsb' 0 8, lowBits_toNat 8 w, step_write rest w (r := .battery) nofun h⟩, fun i hopen => ?_⟩
  · exact ⟨step_write rest w (r := .sx) nofun h, step_write rest w (r := .sy) nofun h,
      step_write rest w (r := .sz) nofun h, step_write rest w (r := .txseq) nofun h,
      step_write rest w (r := .peerlast) nofun h, step_write rest w (r := .peerlow) nofun h,
      step_write rest w (r := .peerhigh) nofun h⟩
  · refine (step_write rest w (r := .uid i) nofun h).trans ?_
    rw [storeRegister, writeReg_uid_open i w (s := { s with port.inbox := rest }) hopen]
    rfl

end Sys2Proof.Machine
end

section
/-! PROOF. Command words (30_encoding.md): decoding and encoding agree row by row of the opcode map (R60 to R65), a write to
CMD runs the decoded command (R61), an illegal word only returns (R66), and `ldframe` loads a frame (R68). -/

namespace Sys2Proof.Machine

/-! ## The fields of a word -/

/-- A word made of an opcode and low 24 bits, as an integer (30_encoding.md R60). -/
theorem fields_toNat (op : Byte) (low : BitVec 24) : (op ++ low).toNat = op.toNat * 2 ^ 24 + low.toNat := by
  rw [BitVec.toNat_append, ← Nat.shiftLeft_add_eq_or_of_lt low.isLt, Nat.shiftLeft_eq]

/-- A command word is its opcode followed by its low 24 bits (30_encoding.md R60). -/
theorem opcode_append_low (w : Word) : w.extractLsb' 24 8 ++ w.extractLsb' 0 24 = w := by
  have := w.isLt
  apply BitVec.eq_of_toNat_eq
  rw [fields_toNat, lowBits_toNat, BitVec.extractLsb'_toNat, Nat.shiftRight_eq_div_pow]
  omega

/-- A word is decoded by its opcode and its low 24 bits alone (30_encoding.md R65). -/
theorem decode_of_fields {w : Word} {op : Byte} {low : BitVec 24}
    (h : w.extractLsb' 24 8 = op ∧ w.extractLsb' 0 24 = low) : decode w = decodeFields op low := by
  obtain ⟨hop, hlow⟩ := h
  rw [decode, hop, hlow]

/-- Zero-extension keeps the integer of the low 24 bits (30_encoding.md R64). -/
theorem zeroExtend_toNat (low : BitVec 24) : (low.zeroExtend 32).toNat = low.toNat :=
  BitVec.toNat_setWidth_of_le (by decide)

/-- An immediate that fits in `imm24` is its own zero-extended low part (30_encoding.md R64). -/
theorem zeroExtend_low {imm : Word} (h : imm.toNat ≤ 0xFFFFFF) : (imm.extractLsb' 0 24).zeroExtend 32 = imm := by
  apply BitVec.eq_of_toNat_eq
  rw [zeroExtend_toNat, lowBits_toNat]
  omega

/-- The low part gives back the low 24 bits it was extended from (30_encoding.md R64). -/
theorem low_zeroExtend (low : BitVec 24) : (low.zeroExtend 32).extractLsb' 0 24 = low := by
  apply BitVec.eq_of_toNat_eq
  rw [lowBits_toNat, zeroExtend_toNat, Nat.mod_eq_of_lt low.isLt]

/-- The word of NEXTI as an integer (30_encoding.md R64). -/
theorem encode_nexti_toNat (imm : Word) : (encode (.nexti imm)).toNat = 0x11000000 + imm.toNat % 2 ^ 24 := by
  rw [encode, fields_toNat, lowBits_toNat]
  rfl

/-- The word of a well-formed NEXTI as the opcode map writes it (30_encoding.md R65). -/
theorem encode_nexti {imm : Word} (h : imm.toNat ≤ 0xFFFFFF) : encode (.nexti imm) = 0x11000000#32 + imm := by
  apply BitVec.eq_of_toNat_eq
  rw [encode_nexti_toNat, BitVec.toNat_add, BitVec.toNat_ofNat]
  omega

/-! ## Decoding and encoding agree -/

/-- Decoding the encoding of a well-formed command gives it back: every row is found by the place of its fields, and the
immediate of NEXTI fits in its 24 bits (30_encoding.md R64, R65). -/
theorem decode_encode (i : Instr) (h : i.wellFormed = true) : decode (encode i) = .ok i := by
  cases i with
  | nop => exact decode_of_fields Laws.FieldPlacement.nop
  | setid => exact decode_of_fields Laws.FieldPlacement.setid
  | next => exact decode_of_fields Laws.FieldPlacement.next
  | nexti imm =>
    have himm : imm.toNat ≤ 0xFFFFFF := of_decide_eq_true h
    refine (decode_of_fields (Laws.FieldPlacement.nexti imm)).trans ?_
    exact congrArg (fun v => Except.ok (Instr.nexti v)) (zeroExtend_low himm)
  | observe => exact decode_of_fields Laws.FieldPlacement.observe
  | encode => exact decode_of_fields Laws.FieldPlacement.encode
  | encrypt => exact decode_of_fields Laws.FieldPlacement.encrypt
  | verify => exact decode_of_fields Laws.FieldPlacement.verify
  | append => exact decode_of_fields Laws.FieldPlacement.append
  | erase => exact decode_of_fields Laws.FieldPlacement.erase

/-- A format-Z row that matches answers its command, encoded by the row's opcode and a zero low part
(30_encoding.md R62). -/
theorem encode_of_decodeZ {op : Byte} {low : BitVec 24} {i j : Instr} (h : decodeZ op low i = .ok j)
    (hrow : i.wellFormed = true ∧ encode i = op ++ 0#24) : j.wellFormed = true ∧ encode j = op ++ low := by
  unfold decodeZ at h
  split at h
  · cases h
    subst low
    exact hrow
  · cases h

/-- What the opcode map answers is well-formed and is encoded by the fields it was found by: row by row, the ten rows and
the words of none (30_encoding.md R65). -/
theorem encode_of_decodeFields {op : Byte} {low : BitVec 24} {i : Instr} (h : decodeFields op low = .ok i) :
    i.wellFormed = true ∧ encode i = op ++ low := by
  unfold decodeFields at h
  -- the three rows of format Z above NEXTI
  iterate 3
    rcases ite_eq_iff.1 h with ⟨rfl, h⟩ | ⟨-, h⟩
    · exact encode_of_decodeZ h ⟨rfl, rfl⟩
  rcases ite_eq_iff.1 h with ⟨rfl, h⟩ | ⟨-, h⟩
  · cases h
    refine ⟨decide_eq_true ?_, congrArg (0x11#8 ++ ·) (low_zeroExtend low)⟩
    rw [zeroExtend_toNat]
    exact Nat.le_of_lt_succ low.isLt
  -- the six rows of format Z below it, and the words of no row
  iterate 6
    rcases ite_eq_iff.1 h with ⟨rfl, h⟩ | ⟨-, h⟩
    · exact encode_of_decodeZ h ⟨rfl, rfl⟩
  cases h

/-- Decoding is exactly the inverse of encoding on well-formed commands (30_encoding.md R65). -/
theorem decode_eq_ok_iff (w : Word) (i : Instr) : decode w = .ok i ↔ i.wellFormed = true ∧ w = encode i := by
  constructor
  · intro h
    obtain ⟨hwf, hencode⟩ := encode_of_decodeFields h
    exact ⟨hwf, (hencode.trans (opcode_append_low w)).symm⟩
  · rintro ⟨hwf, rfl⟩
    exact decode_encode i hwf

/-- Settles O1: the rows by the place of their fields. -/
theorem decodeEncodeAgree : Obligations.DecodeEncodeAgree := decode_encode

/-- Settles O2: a word decodes to a command exactly when it is its encoding, and the table lists the encodings. -/
theorem decodesExactlyTheTable : Obligations.DecodesExactlyTheTable := by
  intro w i
  rw [decode_eq_ok_iff]
  cases i with
  | nexti imm =>
    simp only [Instr.wellFormed, decide_eq_true_eq, reduceCtorEq, false_and, false_or, or_false, Instr.nexti.injEq,
      exists_eq_left']
    exact and_congr_right fun himm => by rw [encode_nexti himm]
  | _ => simp [Instr.wellFormed, encode]

/-- Settles O3: five words are the encodings of their commands, and the other two belong to no row. -/
theorem knownWordsDecode : Obligations.KnownWordsDecode :=
  ⟨decode_encode .setid rfl, decode_encode (.nexti 100#32) rfl, decode_encode .observe rfl, decode_encode .verify rfl,
    decode_encode .append rfl, rfl, rfl⟩

/-! ## A write of a command word -/

/-- A write to CMD on a free port stores, runs and answers its word (30_encoding.md R61). -/
theorem step_write_cmd {s : State} (rest : List Event) (w : Word) (h : s.port.status ≠ .outstanding) :
    step (pending (.request (.write 0x00#8 w)) rest s) = runCommand exec w { s with port.inbox := rest } :=
  takeEvent_request _ _ _ { s with port.inbox := rest } h

/-- The word of a command is run as that command, and answered (30_encoding.md R61). -/
theorem runCommand_of_decode_ok {run : Runner} {w : Word} {i : Instr} (s : State) (h : decode w = .ok i) :
    runCommand run w s = answerCommand (run i (setCmd w s)) := by
  simp only [runCommand, executeWord, h]

/-- The word of no command returns ERR_ILLEGAL, and is answered (30_encoding.md R66). -/
theorem runCommand_of_decode_error {run : Runner} {w : Word} {e : Illegal} (s : State) (h : decode w = .error e) :
    runCommand run w s = .next (giveAnswer (goodAnswer 0#32) (illegalCommand (setCmd w s))) := by
  simp only [runCommand, executeWord, h, answerCommand]

/-- The step that takes an illegal word writes CMD, RC and RES and nothing else (30_encoding.md R66). -/
theorem step_write_illegal {s : State} (rest : List Event) {w : Word} {e : Illegal} (h : s.port.status ≠ .outstanding)
    (hw : decode w = .error e) :
    step (pending (.request (.write 0x00#8 w)) rest s) =
      .next (answeredWith (goodAnswer 0#32) rest { s with sys := { cmd := w, rc := 10#4, res := 0#32 } }) :=
  (step_write_cmd rest w h).trans (runCommand_of_decode_error _ hw)

/-- Settles O5: a write to CMD runs its word, decoded or illegal. -/
theorem stepRunsDecodedCommand : Obligations.StepRunsDecodedCommand := by
  refine fun s rest w h => ⟨fun i t hw ht => ?_, fun e => step_write_illegal rest h⟩
  rw [step_write_cmd rest w h, runCommand_of_decode_ok _ hw, ht]
  rfl

/-- The opcode of an encoding is one of the ten, and unless it is NEXTI's its low part is zero (30_encoding.md R62, R65). -/
theorem encode_fields (i : Instr) :
    (encode i).toNat / 2 ^ 24 ∈ [0x00, 0x01, 0x10, 0x11, 0x20, 0x30, 0x31, 0x32, 0x40, 0x41] ∧
      ((encode i).toNat / 2 ^ 24 = 0x11 ∨ (encode i).toNat % 2 ^ 24 = 0) := by
  cases i with
  | nexti imm =>
    have hop : (encode (.nexti imm)).toNat / 2 ^ 24 = 0x11 := by
      rw [encode_nexti_toNat]
      omega
    exact ⟨by rw [hop]; decide, .inl hop⟩
  | _ => decide

/-- The words that R66 calls illegal decode to no command: they are no command's encoding. -/
theorem decode_illegal {w : Word}
    (h : w.toNat / 2 ^ 24 ∉ [0x00, 0x01, 0x10, 0x11, 0x20, 0x30, 0x31, 0x32, 0x40, 0x41] ∨
      (w.toNat / 2 ^ 24 ≠ 0x11 ∧ w.toNat % 2 ^ 24 ≠ 0)) : ∃ e, decode w = .error e := by
  cases hw : decode w with
  | error e => exact ⟨e, rfl⟩
  | ok i =>
    obtain ⟨_, rfl⟩ := (decode_eq_ok_iff w i).1 hw
    obtain ⟨hop, hlow⟩ := encode_fields i
    rcases h with hnone | ⟨hne, hset⟩
    · exact absurd hop hnone
    · exact absurd hlow (not_or.2 ⟨hne, hset⟩)

/-- Settles O7: such a word decodes to no command, and the step that takes it only returns. -/
theorem illegalWordsOnlyReturn : Obligations.IllegalWordsOnlyReturn := by
  intro s rest w h hw
  obtain ⟨e, he⟩ := decode_illegal hw
  exact step_write_illegal rest h he

/-! ## Loading a frame -/

/-- The bytes of a packed word are those it was packed from (00_scope.md R6). -/
theorem extractLsb'_packWord (a b c d : Byte) :
    (packWord a b c d).extractLsb' 24 8 = a ∧ (packWord a b c d).extractLsb' 16 8 = b ∧
      (packWord a b c d).extractLsb' 8 8 = c ∧ (packWord a b c d).extractLsb' 0 8 = d := by
  have := a.isLt
  have := b.isLt
  have := c.isLt
  have := d.isLt
  refine ⟨?_, ?_, ?_, ?_⟩ <;> apply BitVec.eq_of_toNat_eq <;>
    rw [BitVec.extractLsb'_toNat, packWord_toNat, Nat.shiftRight_eq_div_pow] <;> omega

/-- Storing a frame's own word `F_i` copies its four bytes and no others (10_state.md R27). -/
theorem setFrameWord_frameWord_getElem (i : Fin 5) (f g : Frame) (j : Nat) (hj : j < 20) :
    (setFrameWord i (frameWord i f) g)[j] = if j / 4 = i.val then f[j] else g[j] := by
  by_cases hwindow : j / 4 = i.val
  · obtain ⟨h0, h1, h2, h3⟩ :=
      extractLsb'_packWord f[4 * i.val] f[4 * i.val + 1] f[4 * i.val + 2] f[4 * i.val + 3]
    rw [if_pos hwindow, setFrameWord_getElem, frameWord, h0, h1, h2, h3]
    split_ifs
    case neg => omega
    all_goals
      subst j
      rfl
  · rw [if_neg hwindow]
    exact setFrameWord_outside _ g (j := ⟨j, hj⟩) hwindow

/-- A frame's five words, stored over any frame, are that frame (30_encoding.md R68, 00_scope.md R6). -/
theorem setFrameWord_all (f g : Frame) :
    setFrameWord 4 (frameWord 4 f) (setFrameWord 3 (frameWord 3 f) (setFrameWord 2 (frameWord 2 f)
      (setFrameWord 1 (frameWord 1 f) (setFrameWord 0 (frameWord 0 f) g)))) = f := by
  refine Vector.ext fun j hj => ?_
  simp only [setFrameWord_frameWord_getElem]
  split_ifs
  case neg => omega
  all_goals rfl

/-- `s` with FRAME holding `g` and its tag at RAW. -/
def withRawFrame (g : Frame) (s : State) : State :=
  { s with cod := { s.cod with frame := g, fstate := .raw } }

/-- The write of the word `F_i` of a frame to its window (30_encoding.md R68). -/
def frameWrite (f : Frame) (i : Fin 5) : Event :=
  .request (.write (numberOfReg (.f i)) (frameWord i f))

/-- A write to the frame window on a free port stores the word and sets the tag to RAW (10_state.md R27). -/
theorem step_frameWrite {s : State} (f : Frame) (i : Fin 5) (rest : List Event) (h : s.port.status ≠ .outstanding) :
    step (pending (frameWrite f i) rest s) =
      .next (answeredWith (goodAnswer 0#32) rest
        (withRawFrame (setFrameWord i (frameWord i f) s.cod.frame) s)) :=
  step_write rest (r := .f i) (frameWord i f) nofun h

/-- A run that meets a further write to the frame window stores its word and goes on (10_state.md R27). -/
theorem run_frameWrite {n : Nat} (s : State) (a : Answer) (f g : Frame) (i : Fin 5) (rest : List Event) :
    Host.Core.run Sys2Proof.core (n + 1) (answeredWith a (frameWrite f i :: rest) (withRawFrame g s)) =
      Host.Core.run Sys2Proof.core n
        (answeredWith (goodAnswer 0#32) rest (withRawFrame (setFrameWord i (frameWord i f) g) s)) :=
  run_succ_of_next (step_frameWrite (s := answeredWith a [] (withRawFrame g s)) f i rest nofun)

/-- Settles O17: five writes to the frame window, and the five words make up the frame. -/
theorem loadFrameLoadsFrame : Obligations.LoadFrameLoadsFrame := by
  intro s rest f h
  refine (run_succ_of_next (step_frameWrite f 0 ([1, 2, 3, 4].map (frameWrite f) ++ rest) h)).trans ?_
  simp only [List.map_cons, List.map_nil, List.cons_append, List.nil_append, run_frameWrite, setFrameWord_all]
  rfl

end Sys2Proof.Machine
end

section
/-! PROOF. Unit JIT (40_jitter.md): the multiply-with-carry step on integers (R81), what one draw does (R82) and that NEXT and
NEXTI are such draws (R82, R83), the bound of the result (R80), and what a draw depends on (R84, R85). -/

namespace Sys2Proof.Machine

/-! ## The multiply-with-carry step -/

/-- The carry of a generator word is its high half (40_jitter.md R81). -/
theorem highHalf_toNat (v : Word) : (v.extractLsb' 16 16).toNat = v.toNat / 65536 := by
  have := v.isLt
  rw [BitVec.extractLsb'_toNat, Nat.shiftRight_eq_div_pow]
  omega

/-- The step on integers: it stays below `65535 * 65535 + 65535`, so its word is not reduced (40_jitter.md R81). -/
theorem mwc_toNat {a : Nat} (v : Word) (ha : a ≤ 65535) :
    (mwc a v).toNat = a * (v.toNat % 65536) + v.toNat / 65536 := by
  have hlow : v.toNat % 65536 ≤ 65535 := by omega
  have hhigh : v.toNat / 65536 ≤ 65535 := by
    have := v.isLt
    omega
  have hfits : a * (v.toNat % 65536) + v.toNat / 65536 < 2 ^ 32 := calc
    _ ≤ 65535 * 65535 + 65535 := Nat.add_le_add (Nat.mul_le_mul ha hlow) hhigh
    _ < 2 ^ 32 := by decide
  rw [mwc, lowBits_toNat, highHalf_toNat]
  exact (BitVec.toNat_ofNat _ _).trans (Nat.mod_eq_of_lt hfits)

/-- Settles O22: the two halves of the word, and the bound of the step. -/
theorem mwcNeverWraps : Obligations.MwcNeverWraps :=
  fun _ v ha => mwc_toNat v ha

/-! ## One draw -/

/-- The remainder of a word fits in a word (40_jitter.md R82). -/
theorem ofNat_mod_toNat (m : Word) (n : Nat) : (BitVec.ofNat 32 (m.toNat % n)).toNat = m.toNat % n :=
  (BitVec.toNat_ofNat _ _).trans (Nat.mod_eq_of_lt ((Nat.mod_le _ _).trans_lt m.isLt))

/-- A draw whose range is not 0 does what the rule says, with the multipliers of the configuration (40_jitter.md R82). -/
theorem drawnFrom_drawJitter {range : Word} (s : State) (h : range ≠ 0#32) :
    drawnFrom range s (drawJitter Config.params range s) := by
  rcases drawJitter_cases Config.params range s with ⟨hzero, _⟩ | ⟨_, hdraw⟩
  · exact absurd hzero h
  · rw [hdraw]
    exact ⟨BitVec.toNat_add _ _, mwc_toNat _ Config.params.mwcA1_range.2, mwc_toNat _ Config.params.mwcA2_range.2, rfl, rfl,
      ofNat_mod_toNat _ _, rfl, rfl, rfl, rfl, rfl⟩

/-- A command that is one draw with the given range refuses range 0 without touching the unit, and otherwise draws
(40_jitter.md R82). -/
theorem draws_of_exec {i : Instr} {range : Word} {s : State} (h : exec i s = .next (drawJitter Config.params range s)) :
    (range = 0#32 → exec i s = .next { s with sys := { s.sys with rc := 5#4, res := 0#32 } }) ∧
      (range ≠ 0#32 → ∃ t, exec i s = .next t ∧ drawnFrom range s t) := by
  refine ⟨?_, fun hrange => ⟨_, h, drawnFrom_drawJitter s hrange⟩⟩
  rintro rfl
  exact h

/-- A draw that succeeds answers a value below its range, since range 0 is refused (40_jitter.md R80). -/
theorem drawJitter_res_lt {range : Word} {s : State} (h : (drawJitter Config.params range s).sys.rc = 0#4) :
    (drawJitter Config.params range s).sys.res.toNat < range.toNat := by
  rcases drawJitter_cases Config.params range s with ⟨_, herror⟩ | ⟨hrange, _⟩
  · rw [herror] at h
    exact absurd (show RetCode.errRange.number = 0#4 from h) (by decide)
  · obtain ⟨_, _, _, _, _, hres, _⟩ := drawnFrom_drawJitter s hrange
    rw [hres]
    exact Nat.mod_lt _ (BitVec.toNat_pos_of_ne_zero hrange)

/-- The words of the unit and the timer sample determine a draw (40_jitter.md R85). -/
theorem drawJitter_congr (p : Params) (range : Word) {s s' : State} (hjit : s.jit = s'.jit)
    (htimer : timerSample s = timerSample s') :
    (drawJitter p range s).jit = (drawJitter p range s').jit ∧
      (drawJitter p range s).sys.rc = (drawJitter p range s').sys.rc ∧
      (drawJitter p range s).sys.res = (drawJitter p range s').sys.res := by
  rcases drawJitter_cases p range s with ⟨hrange, h⟩ | ⟨hrange, h⟩ <;>
    rcases drawJitter_cases p range s' with ⟨hrange', h'⟩ | ⟨hrange', h'⟩
  · rw [h, h']
    exact ⟨hjit, rfl, rfl⟩
  · exact absurd hrange hrange'
  · exact absurd hrange' hrange
  · rw [h, h', hjit, htimer]
    exact ⟨rfl, rfl, rfl⟩

/-- A draw leaves the log unit alone (40_jitter.md R84). -/
theorem drawJitter_log (p : Params) (range : Word) (s : State) : (drawJitter p range s).log = s.log := by
  rcases drawJitter_cases p range s with ⟨_, h⟩ | ⟨_, h⟩ <;> rw [h] <;> rfl

/-! ## NEXT and NEXTI -/

/-- NEXT is a draw whose range is ARG (40_jitter.md R82). -/
theorem exec_next (s : State) : exec .next s = .next (drawJitter Config.params s.jit.arg s) := rfl

/-- NEXTI is a draw whose range is its immediate (40_jitter.md R83). -/
theorem exec_nexti (imm : Word) (s : State) : exec (.nexti imm) s = .next (drawJitter Config.params imm s) := rfl

/-- Settles O23: the word is the encoding of NEXT, which is one draw. -/
theorem nextDrawsWithArg : Obligations.NextDrawsWithArg :=
  ⟨decode_encode .next rfl, fun s => draws_of_exec (exec_next s)⟩

/-- Settles O24: the word is the encoding of a well-formed NEXTI, which is one draw. -/
theorem nextiDrawsWithImmediate : Obligations.NextiDrawsWithImmediate := by
  intro imm himm
  refine ⟨?_, fun s => draws_of_exec (exec_nexti imm s)⟩
  rw [← encode_nexti himm]
  exact decode_encode (.nexti imm) (decide_eq_true himm)

/-- Settles O25: both commands are draws, and a draw that succeeds answers below its range. -/
theorem jitterBelowRange : Obligations.JitterBelowRange := by
  intro s t
  constructor
  · intro h
    cases (exec_next s).symm.trans h
    exact drawJitter_res_lt
  · intro imm h
    cases (exec_nexti imm s).symm.trans h
    exact drawJitter_res_lt

/-- Settles O26: both results are the one draw, and a draw leaves the other units alone. -/
theorem jitterDependsOnWordsAndTimer : Obligations.JitterDependsOnWordsAndTimer := by
  intro s s' t t' imm hjit htimer h h'
  cases (exec_nexti imm s).symm.trans h
  cases (exec_nexti imm s').symm.trans h'
  obtain ⟨hwords, hrc, hres⟩ := drawJitter_congr Config.params imm hjit htimer
  obtain ⟨hmot, hcod, _⟩ := drawJitter_frame Config.params imm s
  obtain ⟨hmot', hcod', _⟩ := drawJitter_frame Config.params imm s'
  exact ⟨hwords, hrc, hres, hmot, hcod, drawJitter_log _ _ _, hmot', hcod', drawJitter_log _ _ _⟩

end Sys2Proof.Machine
end

section
/-! PROOF. Unit MOT (41_motion.md): what one OBSERVE does on integers (R91 to R96), what a sequence of them does while the
buffer fills (R94) and while no sample qualifies (R98, R99), and that nothing else moves the unit (R100, R101). -/

namespace Sys2Proof.Machine

/-! ## One OBSERVE -/

/-- OBSERVE always succeeds (41_motion.md R91). -/
theorem exec_observe (s : State) : exec .observe s = .next (observe Config.params s) := rfl

@[simp] theorem observe_mot (p : Params) (s : State) : (observe p s).mot = observeMot p s.mot := rfl
@[simp] theorem withSample_mot_ticks (a : Axes Half) (s : State) : (withSample a s).mot.ticks = s.mot.ticks := rfl
@[simp] theorem withSample_mot_warm (a : Axes Half) (s : State) : (withSample a s).mot.warm = s.mot.warm := rfl

/-- Step 2 (41_motion.md R93). -/
theorem observeMot_pos_toNat (p : Params) (m : Mot) : (observeMot p m).pos.toNat = (m.pos.toNat + 1) % p.depth :=
  nextPos_toNat p m

/-- While the buffer fills nothing is classified (41_motion.md R94). -/
theorem observeMot_ticks_of_cold {p : Params} {m : Mot} (h : m.warm = false) : (observeMot p m).ticks = m.ticks := by
  simp [observeMot, h]

/-- WARM is set by the OBSERVE that brings POS back to 0 (41_motion.md R94). -/
theorem observeMot_warm_of_cold {p : Params} {m : Mot} (h : m.warm = false) :
    (observeMot p m).warm = true ↔ (observeMot p m).pos.toNat = 0 := by
  simp [observeMot, h, BitVec.toNat_eq]

/-- OBSERVE never clears WARM (10_state.md R34). -/
theorem observeMot_warm_of_warm {p : Params} {m : Mot} (h : m.warm = true) : (observeMot p m).warm = true := by
  simp [observeMot, h]

/-- A classified sample that qualifies re-arms TICKS (41_motion.md R95). -/
theorem observeMot_ticks_of_qualifies {p : Params} {m : Mot} (h : m.warm = true)
    (hq : qualifies p (slideSums m) m.sample = true) : (observeMot p m).ticks.toNat = p.maxTicks := by
  simp only [observeMot, h, hq, if_true]
  exact nextTicks_true p m.ticks

/-- A classified sample that does not qualify lets TICKS decay (41_motion.md R95). -/
theorem observeMot_ticks_of_not_qualifies {p : Params} {m : Mot} (h : m.warm = true)
    (hq : qualifies p (slideSums m) m.sample = false) : (observeMot p m).ticks.toNat = m.ticks.toNat - 1 := by
  simp only [observeMot, h, hq, if_true]
  exact nextTicks_false p m.ticks

/-- The slot at POS exists (10_state.md R39, I-POS). -/
theorem MotionOk.getElem?_pos {p : Params} {m : Mot} (h : MotionOk p m) :
    m.buf[m.pos.toNat]? = some (oldSample m) := by
  have hlt : m.pos.toNat < m.buf.length := h.length ▸ h.pos
  rw [oldSample_eq_getElem hlt, List.getElem?_eq_getElem hlt]

/-- Step 1 on integers: no sum wraps (41_motion.md R92). -/
theorem MotionOk.slideSums_toInt {p : Params} {m : Mot} (h : MotionOk p m) :
    (slideSums m).x.toInt = m.sum.x.toInt + m.sample.x.toInt - (oldSample m).x.toInt ∧
      (slideSums m).y.toInt = m.sum.y.toInt + m.sample.y.toInt - (oldSample m).y.toInt ∧
      (slideSums m).z.toInt = m.sum.z.toInt + m.sample.z.toInt - (oldSample m).z.toInt := by
  have hlt : m.pos.toNat < m.buf.length := h.length ▸ h.pos
  have hle : m.buf.length ≤ 256 := h.length ▸ p.depth_range.2
  rw [slideSums, oldSample_eq_getElem hlt]
  exact ⟨(slideSum_toInt hlt hle h.sumX).2, (slideSum_toInt hlt hle h.sumY).2, (slideSum_toInt hlt hle h.sumZ).2⟩

/-- Settles O27: the sums by the sliding law, POS by its law, WARM and TICKS by the branch of the warm-up gate. -/
theorem observeFollowsTheFilter : Obligations.ObserveFollowsTheFilter := by
  refine ⟨decode_encode .observe rfl, fun s h => ?_⟩
  obtain ⟨hx, hy, hz⟩ := h.slideSums_toInt
  have hq := qualifies_iff Config.params (slideSums s.mot) s.mot.sample
  exact ⟨oldSample s.mot, observe Config.params s, h.getElem?_pos, exec_observe s, rfl, rfl, hx, hy, hz,
    observeMot_pos_toNat _ _,
    fun hcold => ⟨observeMot_warm_of_cold hcold, observeMot_ticks_of_cold hcold⟩,
    fun hwarm => ⟨observeMot_warm_of_warm hwarm,
      fun hdev => observeMot_ticks_of_qualifies hwarm (hq.2 hdev),
      fun hdev => observeMot_ticks_of_not_qualifies hwarm (Bool.eq_false_iff.2 (mt hq.1 hdev))⟩,
    rfl, rfl, rfl, rfl, rfl, rfl⟩

/-! ## Sequences of OBSERVE -/

theorem observeAll_nil (s : State) : observeAll [] s = .next s := rfl

/-- The first sample of a sequence is observed, then the rest. -/
theorem observeAll_cons (a : Axes Half) (as : List (Axes Half)) (s : State) :
    observeAll (a :: as) s = observeAll as (observe Config.params (withSample a s)) := rfl

/-- One sample of the warm-up (41_motion.md R94). -/
theorem observeAll_cons_of_cold (a : Axes Half) (as : List (Axes Half)) {s : State} (h : s.mot.warm = false) :
    ∃ u, observeAll (a :: as) s = observeAll as u ∧ u.mot.ticks = s.mot.ticks ∧
      (u.mot.warm = true ↔ u.mot.pos.toNat = 0) ∧
      u.mot.pos.toNat = (s.mot.pos.toNat + 1) % Config.params.depth := by
  have hcold : (withSample a s).mot.warm = false := h
  exact ⟨_, observeAll_cons a as s, observeMot_ticks_of_cold hcold, observeMot_warm_of_cold hcold,
    observeMot_pos_toNat _ _⟩

/-- A quiet sequence: its first sample is classified and does not qualify, and the rest is quiet after it
(41_motion.md R98). -/
theorem quietRun_cons {a : Axes Half} {as : List (Axes Half)} {s : State} (h : quietRun Config.params (a :: as) s) :
    s.mot.warm = true ∧ qualifies Config.params (slideSums (withSample a s).mot) (withSample a s).mot.sample = false ∧
      quietRun Config.params as (observe Config.params (withSample a s)) := by
  obtain ⟨hwarm, hrearms, hrest⟩ := h
  refine ⟨hwarm, ?_, hrest _ (exec_observe _)⟩
  rw [rearms, withSample_mot_warm, hwarm, Bool.true_and] at hrearms
  exact hrearms

/-- The warm-up from any slot on: until the buffer is full, only POS advances, and the sample that fills the last slot
sets WARM (41_motion.md R94). -/
theorem observeAll_warmUp (samples : List (Axes Half)) (s : State) (hcold : s.mot.warm = false)
    (hpos : s.mot.pos.toNat < Config.params.depth)
    (hroom : s.mot.pos.toNat + samples.length ≤ Config.params.depth) :
    ∃ t, observeAll samples s = .next t ∧ t.mot.ticks = s.mot.ticks ∧
      (t.mot.warm = true ↔ s.mot.pos.toNat + samples.length = Config.params.depth) ∧
      t.mot.pos.toNat = (s.mot.pos.toNat + samples.length) % Config.params.depth := by
  induction samples generalizing s with
  | nil =>
    refine ⟨s, observeAll_nil s, rfl, ?_, (Nat.mod_eq_of_lt hpos).symm⟩
    simp [hcold, hpos.ne]
  | cons a as ih =>
    obtain ⟨u, hfirst, hticks, hwarm, hnext⟩ := observeAll_cons_of_cold a as hcold
    rw [List.length_cons] at hroom ⊢
    rw [hfirst]
    by_cases hfull : s.mot.pos.toNat + 1 = Config.params.depth
    · have hnil : as = [] := List.eq_nil_of_length_eq_zero (by omega)
      subst hnil
      rw [hfull, Nat.mod_self] at hnext
      exact ⟨u, observeAll_nil u, hticks, by simp [hwarm, hnext, hfull], by simp [hnext, hfull]⟩
    · rw [Nat.mod_eq_of_lt (by omega)] at hnext
      have hstill : u.mot.warm = false := by
        rw [Bool.eq_false_iff, ne_eq, hwarm]
        omega
      obtain ⟨t, hrun, hticks', hwarm', hpos'⟩ := ih u hstill (by omega) (by omega)
      rw [hnext, Nat.add_assoc, Nat.add_comm 1] at hwarm' hpos'
      exact ⟨t, hrun, hticks'.trans hticks, hwarm', hpos'⟩

/-- Settles O28: the warm-up from slot 0. -/
theorem warmUpNeverClassifies : Obligations.WarmUpNeverClassifies := by
  intro s samples hcold hpos hlen
  have hzero : s.mot.pos.toNat = 0 := by rw [hpos]; rfl
  have h := observeAll_warmUp samples s hcold (hzero ▸ Config.params.depth_range.1) (by omega)
  rwa [hzero, Nat.zero_add] at h

/-- The decay: each classified sample that does not qualify takes one from TICKS, down to 0 (41_motion.md R95). -/
theorem observeAll_quiet (samples : List (Axes Half)) (s : State) (h : quietRun Config.params samples s) :
    ∃ t, observeAll samples s = .next t ∧ t.mot.ticks.toNat = s.mot.ticks.toNat - samples.length := by
  induction samples generalizing s with
  | nil => exact ⟨s, observeAll_nil s, rfl⟩
  | cons a as ih =>
    obtain ⟨hwarm, hquiet, hrest⟩ := quietRun_cons h
    obtain ⟨t, hrun, hticks⟩ := ih _ hrest
    have hfirst := observeMot_ticks_of_not_qualifies (m := (withSample a s).mot) hwarm hquiet
    refine ⟨t, hrun, ?_⟩
    rw [hticks, observe_mot, hfirst, withSample_mot_ticks, List.length_cons, Nat.sub_sub, Nat.add_comm 1]

/-- Settles O29: the qualifying sample re-arms TICKS, the quiet ones let it decay, and MOVING is bit 0 of STATUS. -/
theorem decayLaw : Obligations.DecayLaw := by
  intro s t a samples hrearms hexec hquiet hlen
  cases (exec_observe _).symm.trans hexec
  obtain ⟨hwarm, hq⟩ := (Bool.and_eq_true _ _).mp hrearms
  have hmax := observeMot_ticks_of_qualifies hwarm hq
  obtain ⟨u, hrun, hticks⟩ := observeAll_quiet samples _ hquiet
  rw [observe_mot, hmax] at hticks
  refine ⟨hmax, u, hrun, hticks, ?_⟩
  have hmoving : (readReg Config.params .status u).getLsbD 0 = moving u := statusWord_getLsbD Config.params u 0
  rw [hmoving, moving, decide_eq_true_iff, hticks]
  omega

/-- Settles O30: the decay reaches 0 and stays there. -/
theorem stillnessLaw : Obligations.StillnessLaw := by
  intro s samples hquiet
  obtain ⟨t, hrun, hticks⟩ := observeAll_quiet samples s hquiet
  have hstill (h : s.mot.ticks.toNat ≤ samples.length) : t.mot.ticks = 0#8 := by
    apply BitVec.eq_of_toNat_eq
    rw [hticks]
    exact Nat.sub_eq_zero_of_le h
  refine ⟨fun hle hlen => ⟨t, hrun, hstill (hle.trans hlen)⟩, fun hzero => ⟨t, hrun, hstill ?_⟩⟩
  rw [hzero]
  exact Nat.zero_le _

/-! ## Nothing else moves the unit -/

@[simp] theorem deriveIdentity_mot (p : Params) (s : State) : (deriveIdentity p s).mot = s.mot := by
  rcases deriveIdentity_cases p s with ⟨_, h⟩ | ⟨_, h⟩ <;> rw [h] <;> rfl

@[simp] theorem drawJitter_mot (p : Params) (range : Word) (s : State) : (drawJitter p range s).mot = s.mot :=
  (drawJitter_frame p range s).1

@[simp] theorem encodeFrame_mot (p : Params) (s : State) : (encodeFrame p s).mot = s.mot := by
  rcases encodeFrame_cases p s with ⟨_, h⟩ | ⟨_, h⟩ <;> rw [h] <;> rfl

@[simp] theorem encryptFrame_mot (p : Params) (s : State) : (encryptFrame p s).mot = s.mot := by
  rcases encryptFrame_cases p s with ⟨_, h⟩ | ⟨_, h⟩ <;> rw [h] <;> rfl

@[simp] theorem verifyFrame_mot (p : Params) (s : State) : (verifyFrame p s).mot = s.mot := by
  rcases verifyFrame_cases p s with ⟨_, h⟩ | ⟨_, _, h⟩ | ⟨_, _, _, h⟩ | ⟨_, _, _, h⟩ <;> rw [h] <;> rfl

/-- A command other than OBSERVE leaves the motion unit alone at every moment (41_motion.md R100). -/
theorem commandStates_mot_of_ne_observe {p : Params} {i : Instr} {s : State} (hi : i ≠ .observe) :
    ∀ x ∈ commandStates p i s, x.mot = s.mot := by
  cases i
  case observe => exact absurd rfl hi
  case append => exact fun x hx => (appendStates_effect p s x hx).mot
  case erase => exact fun x hx => (eraseStates_effect p s x hx).mot
  all_goals simp [commandStates]

/-- Where a transaction that began in `s` can stand before its answer (30_encoding.md R61, 20_memory.md R42). -/
inductive RequestMoment (p : Params) (r : Request) (s : State) : State → Prop
  /-- nothing has changed, or nothing will -/
  | start : RequestMoment p r s s
  /-- the word is in CMD -/
  | stored (w : Word) : RequestMoment p r s (setCmd w s)
  /-- the word was no command -/
  | illegal (w : Word) : RequestMoment p r s (illegalCommand (setCmd w s))
  /-- a register is written -/
  | written {reg : Reg} {w : Word} {x : State} (h : writeReg reg w s = some x) : RequestMoment p r s x
  /-- at some moment of the command -/
  | command {w : Word} {i : Instr} {x : State} (hi : commandOf r = some i) (hx : x ∈ commandStates p i (setCmd w s)) :
      RequestMoment p r s x

/-- A transaction run whole ends at such a moment, answered (20_memory.md R45). -/
theorem transact_moment {p : Params} {r : Request} {s t : State} (h : transact p (execIn p) r s = .next t) :
    ∃ a x, t = giveAnswer a x ∧ RequestMoment p r s x := by
  obtain ⟨a, x, rfl, hx⟩ := transact_cases h
  refine ⟨a, x, rfl, ?_⟩
  rcases hx with rfl | ⟨reg, w, hw⟩ | ⟨w, rfl⟩ | ⟨w, i, rfl, hd, hx⟩
  · exact .start
  · exact .written hw
  · exact .illegal w
  · exact .command (commandOf_write_cmd hd) (execIn_mem_commandStates hx)

/-- A transaction begun stands at such a moment, unanswered (70_reset_and_hazards.md R197). -/
theorem stateInside_moment (p : Params) (r : Request) (n : Nat) (s : State) :
    ∃ x, stateInside p r n s = leaveOutstanding x ∧ RequestMoment p r s x := by
  obtain ⟨x, hx, hin⟩ := stateInside_mem p r n s
  refine ⟨x, hin, ?_⟩
  rcases hx with rfl | hx
  · exact .start
  · refine forall_requestStates p (RequestMoment p r s) r s .start ?_ (fun w => ⟨.stored w, .illegal w⟩)
      (fun _ _ _ hw => .written hw) x hx
    rintro w i rfl hd x hx
    exact .command (commandOf_write_cmd hd) hx

/-- All that OBSERVE alone may change of the motion unit is as it was: everything but the sample operand
(41_motion.md R101). -/
structure MotionKept (m n : Mot) : Prop where
  buf : n.buf = m.buf
  sum : n.sum = m.sum
  pos : n.pos = m.pos
  warm : n.warm = m.warm
  ticks : n.ticks = m.ticks

theorem MotionKept.of_eq {m n : Mot} (h : n = m) : MotionKept m n := by
  subst h
  exact ⟨rfl, rfl, rfl, rfl, rfl⟩

/-- A transaction that issues no OBSERVE keeps the motion unit at every moment. -/
theorem RequestMoment.motionKept {p : Params} {r : Request} {s x : State} (h : RequestMoment p r s x)
    (hr : commandOf r ≠ some .observe) : MotionKept s.mot x.mot := by
  cases h with
  | start => exact .of_eq rfl
  | stored w => exact .of_eq rfl
  | illegal w => exact .of_eq rfl
  | written hw =>
    obtain ⟨_, _, _, hbuf, hsum, hpos, hwarm, hticks, _⟩ := writeReg_frame hw
    exact ⟨hbuf, hsum, hpos, hwarm, hticks⟩
  | command hi hx =>
    exact .of_eq ((commandStates_mot_of_ne_observe (fun h => hr (h ▸ hi)) x hx).trans (setCmd_mot _ s))

/-- Settles O31: an event that is no reset leaves the unit at a moment of its transaction, which is no OBSERVE. -/
theorem motionStateIsOwned : Obligations.MotionStateIsOwned := by
  intro s t e rest h hreset hrequest hbegun
  rw [step_pending, exec_eq_execIn] at h
  have hkept : MotionKept s.mot t.mot := by
    cases e with
    | reset k => exact absurd rfl (hreset k)
    | request r =>
      obtain ⟨_, ht⟩ := takeEvent_request_next h
      obtain ⟨a, x, rfl, hx⟩ := transact_moment ht
      exact hx.motionKept (hrequest r rfl)
    | begun r n =>
      obtain ⟨_, rfl⟩ := takeEvent_begun_next h
      obtain ⟨x, hin, hx⟩ := stateInside_moment Config.params r n { s with port.inbox := rest }
      rw [hin]
      exact hx.motionKept (hbegun r n rfl)
  exact ⟨hkept.buf, hkept.sum, hkept.pos, hkept.warm, hkept.ticks⟩

end Sys2Proof.Machine
end

section
/-! PROOF. Unit COD (42_codec.md): what ENCODE, ENCRYPT and VERIFY do in each of their cases (R106, R109, R111, R113), and that
VERIFY undoes ENCRYPT on a frame ENCODE built (R114). -/

namespace Sys2Proof.Machine

/-! ## ENCODE -/

/-- ENCODE always gives a next state (42_codec.md R106). -/
theorem exec_encode (s : State) : exec .encode s = .next (encodeFrame Config.params s) := rfl

/-- Without an identity ENCODE only returns (42_codec.md R106). -/
theorem encodeFrame_of_not_idValid {p : Params} {s : State} (h : s.cod.idValid = false) :
    encodeFrame p s = ret .errNoid 0#32 s := by
  simpa [h] using encodeFrame_cases p s

/-- With an identity ENCODE builds the frame (42_codec.md R106). -/
theorem encodeFrame_of_idValid {p : Params} {s : State} (h : s.cod.idValid = true) :
    encodeFrame p s =
      ret .ok ((frameCrc p (timerSample s) s).zeroExtend 32)
        { timerTaken s with cod.frame := builtFrame p (timerSample s) s, cod.fstate := .built } := by
  simpa [h] using encodeFrame_cases p s

/-- The flags byte is FLAG_MOVING exactly when TICKS is not 0 (30_encoding.md R71). -/
theorem flagsByte_eq (p : Params) (s : State) :
    flagsByte p s = if 0 < s.mot.ticks.toNat then p.flagMoving else 0x00#8 := by
  simp only [flagsByte, moving, decide_eq_true_eq]

/-- Bytes 0 to 17 of the frame, one by one (30_encoding.md R70). -/
theorem frameBody_eq (p : Params) (t : Word) (s : State) :
    frameBody p t s =
      [p.protoBeacontracker, s.cod.tagId.extractLsb' 8 8, s.cod.tagId.extractLsb' 0 8,
        if 0 < s.mot.ticks.toNat then p.flagMoving else 0x00#8,
        t.extractLsb' 24 8, t.extractLsb' 16 8, t.extractLsb' 8 8, t.extractLsb' 0 8, s.cod.txLevel.zeroExtend 8,
        s.cod.txSeq.extractLsb' 8 8, s.cod.txSeq.extractLsb' 0 8,
        s.cod.peerLast.extractLsb' 8 8, s.cod.peerLast.extractLsb' 0 8,
        s.cod.peerLow.extractLsb' 8 8, s.cod.peerLow.extractLsb' 0 8,
        s.cod.peerHigh.extractLsb' 8 8, s.cod.peerHigh.extractLsb' 0 8, s.cod.battery] := by
  rw [← flagsByte_eq]
  rfl

/-- The embedded checksum as an integer: bytes 18 and 19, most significant first (42_codec.md R112). -/
theorem embeddedCrc_toNat (f : Frame) : (embeddedCrc f).toNat = f[18].toNat * 256 + f[19].toNat :=
  fromBe16_toNat f[18] f[19]

/-- Settles O32: the built frame is its body, listed byte by byte, and the checksum of the body. -/
theorem encodeBuildsFrame : Obligations.EncodeBuildsFrame := by
  refine ⟨decode_encode .encode rfl, fun s => ⟨fun h => ?_, fun h => ?_⟩⟩
  · rw [exec_encode, encodeFrame_of_not_idValid h]
    rfl
  · have hcrc := embeddedCrc_toNat (builtFrame Config.params (timerSample s) s)
    rw [embeddedCrc_builtFrame] at hcrc
    refine ⟨builtFrame Config.params (timerSample s) s, frameCrc Config.params (timerSample s) s, ?_,
      (computedCrc_builtFrame _ _ s).symm, hcrc.symm, ?_⟩
    · rw [builtFrame_take, frameBody_eq]
    · rw [exec_encode, encodeFrame_of_idValid h]
      rfl

/-! ## ENCRYPT -/

/-- ENCRYPT always gives a next state (42_codec.md R109). -/
theorem exec_encrypt (s : State) : exec .encrypt s = .next (encryptFrame Config.params s) := rfl

/-- Unless FSTATE is BUILT, ENCRYPT only returns (42_codec.md R109). -/
theorem encryptFrame_of_ne_built {p : Params} {s : State} (h : s.cod.fstate ≠ .built) :
    encryptFrame p s = ret .errSeq 0#32 s := by
  simpa [h] using encryptFrame_cases p s

/-- ENCRYPT enciphers a BUILT frame in place (42_codec.md R109). -/
theorem encryptFrame_of_built {p : Params} {s : State} (h : s.cod.fstate = .built) :
    encryptFrame p s = ret .ok 0#32 { s with cod.frame := encFrame p s.cod.frame, cod.fstate := .raw } := by
  simpa [h] using encryptFrame_cases p s

/-- Settles O33: the block passes the cipher `frameBlocks = 5` and KEY (42_codec.md R110). -/
theorem encryptEnciphersBuiltFrame : Obligations.EncryptEnciphersBuiltFrame := by
  refine ⟨decode_encode .encrypt rfl, fun s => ⟨fun h => ?_, fun h => ?_⟩⟩
  · rw [exec_encrypt, encryptFrame_of_ne_built h]
    rfl
  · rw [exec_encrypt, encryptFrame_of_built h]
    rfl

/-! ## VERIFY -/

/-- VERIFY always gives a next state (42_codec.md R111). -/
theorem exec_verify (s : State) : exec .verify s = .next (verifyFrame Config.params s) := rfl

section
variable {p : Params} {s : State}

/-- Unless FSTATE is RAW, VERIFY only returns (42_codec.md R111). -/
theorem verifyFrame_of_ne_raw (h : s.cod.fstate ≠ .raw) : verifyFrame p s = ret .errSeq 0#32 s := by
  simpa [h] using verifyFrame_cases p s

/-- A wrong checksum is found first (42_codec.md R112). -/
theorem verifyFrame_of_crc_ne (h : s.cod.fstate = .raw)
    (hcrc : computedCrc p (decFrame p s.cod.frame) ≠ embeddedCrc (decFrame p s.cod.frame)) :
    verifyFrame p s = ret .rejected 1#32 { s with cod.frame := decFrame p s.cod.frame, cod.fstate := .empty } := by
  simpa [h, hcrc] using verifyFrame_cases p s

/-- A wrong protocol tag is found when the checksum matches (42_codec.md R112). -/
theorem verifyFrame_of_tag_ne (h : s.cod.fstate = .raw)
    (hcrc : computedCrc p (decFrame p s.cod.frame) = embeddedCrc (decFrame p s.cod.frame))
    (htag : (decFrame p s.cod.frame)[0] ≠ p.protoBeacontracker) :
    verifyFrame p s = ret .rejected 2#32 { s with cod.frame := decFrame p s.cod.frame, cod.fstate := .empty } := by
  simpa [h, hcrc, htag] using verifyFrame_cases p s

/-- A good frame is accepted and accounted for (42_codec.md R111, R113). -/
theorem verifyFrame_of_good (h : s.cod.fstate = .raw) (hgood : goodFrame p (decFrame p s.cod.frame)) :
    verifyFrame p s =
      ret .ok ((frameOid (decFrame p s.cod.frame)).zeroExtend 32)
        { s with
          cod :=
            { accountPeer (decFrame p s.cod.frame) s.cod with
              frame := decFrame p s.cod.frame, fstate := .verified } } := by
  obtain ⟨hcrc, htag⟩ := hgood
  simpa [h, hcrc, htag] using verifyFrame_cases p s

end

/-- The checksum test compares integers (42_codec.md R112). -/
theorem computedCrc_eq_embeddedCrc_iff (p : Params) (f : Frame) :
    computedCrc p f = embeddedCrc f ↔ (p.crc16 (f.toList.take 18)).toNat = f[18].toNat * 256 + f[19].toNat := by
  rw [← embeddedCrc_toNat]
  exact BitVec.toNat_inj.symm

/-- A peer counter steps modulo 2^16 when its class was received (42_codec.md R113). -/
theorem counter_toNat (received : Prop) [Decidable received] (n : Half) :
    (if received then n + 1#16 else n).toNat = if received then (n.toNat + 1) % 65536 else n.toNat :=
  (apply_ite BitVec.toNat received _ _).trans rfl

/-- The object-ID as an integer: bytes 1 and 2, most significant first (42_codec.md R111). -/
theorem frameOid_toNat (f : Frame) : (frameOid f).toNat = f[1].toNat * 256 + f[2].toNat :=
  fromBe16_toNat f[1] f[2]

/-- The object-ID in RES is the same integer (42_codec.md R111). -/
theorem frameOid_zeroExtend_toNat (f : Frame) :
    ((frameOid f).zeroExtend 32).toNat = f[1].toNat * 256 + f[2].toNat :=
  (BitVec.toNat_setWidth_of_le (by decide)).trans (frameOid_toNat f)

/-- Settles O34: the four outcomes of VERIFY, the checksum test on integers. -/
theorem verifyDecidesAndAccounts : Obligations.VerifyDecidesAndAccounts := by
  refine ⟨decode_encode .verify rfl, ?_⟩
  rintro s _ rfl
  have hcrc_iff := computedCrc_eq_embeddedCrc_iff Config.params (decFrame Config.params s.cod.frame)
  refine ⟨fun hne => ?_, fun hraw hcrc => ?_, fun hraw hcrc htag => ?_, fun hraw hcrc htag => ?_⟩
  · rw [exec_verify, verifyFrame_of_ne_raw hne]
    rfl
  · rw [exec_verify, verifyFrame_of_crc_ne hraw (mt hcrc_iff.1 hcrc)]
    rfl
  · rw [exec_verify, verifyFrame_of_tag_ne hraw (hcrc_iff.2 hcrc) htag]
    rfl
  · rw [exec_verify, verifyFrame_of_good hraw ⟨hcrc_iff.2 hcrc, htag⟩]
    exact ⟨_, rfl, rfl, frameOid_toNat _, counter_toNat _ _, counter_toNat _ _, rfl, frameOid_zeroExtend_toNat _,
      rfl, rfl, rfl, rfl, rfl⟩

/-! ## The round trip -/

/-- A built frame carries TAGID as its object-ID (42_codec.md R106, R111). -/
theorem frameOid_builtFrame (p : Params) (t : Word) (s : State) : frameOid (builtFrame p t s) = s.cod.tagId :=
  fromBe16_bytes s.cod.tagId

/-- VERIFY accepts the encipherment of any built frame, whichever block holds it (42_codec.md R114). -/
theorem verifyFrame_of_enciphered_builtFrame {p : Params} {t : Word} {s u : State} (hraw : u.cod.fstate = .raw)
    (hframe : u.cod.frame = encFrame p (builtFrame p t s)) :
    verifyFrame p u =
      ret .ok (s.cod.tagId.zeroExtend 32)
        { u with
          cod := { accountPeer (builtFrame p t s) u.cod with frame := builtFrame p t s, fstate := .verified } } := by
  have hdec : decFrame p u.cod.frame = builtFrame p t s := by rw [hframe, decFrame_encFrame]
  rw [verifyFrame_of_good hraw (hdec ▸ goodFrame_builtFrame p t s), hdec, frameOid_builtFrame]

/-- Settles O35: ENCODE builds a good frame, and deciphering undoes ENCRYPT. -/
theorem encodeEncryptVerifyRoundTrip : Obligations.EncodeEncryptVerifyRoundTrip := by
  intro s hid
  refine ⟨_, _, (exec_encode s).trans (congrArg _ (encodeFrame_of_idValid hid)), rfl,
    (exec_encrypt _).trans (congrArg _ (encryptFrame_of_built rfl)), rfl, rfl, fun u hraw hframe => ?_⟩
  exact ⟨_, (exec_verify u).trans (congrArg _ (verifyFrame_of_enciphered_builtFrame hraw hframe)), rfl, rfl, rfl, rfl⟩

end Sys2Proof.Machine
end

section
/-! PROOF. Unit LOG (43_log.md): what APPEND does in each of its cases (R130 to R135) and ERASE in each of its (R139, R140),
where a reset inside them leaves the log (R136, R141), and what the log holds after a run (R137, R138). -/

namespace Sys2Proof.Machine

/-! ## The crash-safety law -/

/-- Settles O56: the case of the default configuration. -/
theorem stepKeepsCrashSafety : Obligations.StepKeepsCrashSafety := by
  intro s t hs h
  rw [step_eq_stepIn] at h
  exact stepKeepsTheInvariantInEveryConfiguration Config.params s t hs h

/-! ## APPEND, case by case -/

/-- APPEND always gives a next state (43_log.md R130). -/
theorem exec_append (s : State) : exec .append s = .next (append Config.params s) := rfl

/-- The tests of APPEND pass (43_log.md R130 to R132). -/
structure AppendAccepts (p : Params) (s : State) : Prop where
  verified : s.cod.fstate = .verified
  aligned : s.log.cursor.toNat % entryBytes = 0
  fits : s.log.cursor.toNat + entryBytes ≤ p.logCapacity.val

/-- The flash write has returned `ok`, and the cursor is being written (43_log.md R130, R136). -/
def appendWritten (p : Params) (s : State) : State :=
  setPhase .aCommit { resultTaken (appendWriting p s) with
    log.flash := s.log.flash.writeBytes s.log.cursor.toNat (appendEntry p s) }

/-- The flash write has failed, and APPEND has returned WRITE_FAIL (43_log.md R134). -/
def appendFailed (p : Params) (s : State) : State :=
  ret .writeFail s.log.cursor
    (setPhase .idle (tearFlash s.log.cursor.toNat (appendEntry p s) (resultTaken (appendWriting p s))))

/-- APPEND has returned OK (43_log.md R130, R135). -/
def appendReturned (p : Params) (s : State) : State :=
  ret .ok (nextCursor s) (appendCommit (appendWritten p s))

section
variable {p : Params} {s : State}

/-- The first test: without a verified frame APPEND only returns (43_log.md R130). -/
theorem append_of_ne_verified (h : s.cod.fstate ≠ .verified) : append p s = ret .errSeq 0#32 s := by
  have hprep : appendPrepare p s = .error (ret .errSeq 0#32 s) := by simpa [h] using appendPrepare_cases p s
  rw [append, hprep]

/-- The second test: a misaligned cursor consumes the frame (43_log.md R131, R142). -/
theorem append_of_misaligned (hv : s.cod.fstate = .verified) (h : s.log.cursor.toNat % entryBytes ≠ 0) :
    append p s = ret .errCursor s.log.cursor (setFState .empty s) := by
  have hprep : appendPrepare p s = .error (ret .errCursor s.log.cursor (setFState .empty s)) := by
    simpa [hv, h] using appendPrepare_cases p s
  rw [append, hprep]

/-- The third test: a full region consumes the frame (43_log.md R132, R142). -/
theorem append_of_full (hv : s.cod.fstate = .verified) (ha : s.log.cursor.toNat % entryBytes = 0)
    (h : p.logCapacity.val < s.log.cursor.toNat + entryBytes) :
    append p s = ret .storageFull s.log.cursor (setFState .empty s) := by
  have hprep : appendPrepare p s = .error (ret .storageFull s.log.cursor (setFState .empty s)) := by
    simpa [hv, ha, h, h.not_ge] using appendPrepare_cases p s
  rw [append, hprep]

/-- Past the tests the entry is built (43_log.md R133). -/
theorem appendPrepare_of_accepts (h : AppendAccepts p s) :
    appendPrepare p s = .ok (appendEntry p s, timerTaken (setFState .empty s)) := by
  simpa [appendEntry, h.verified, h.aligned, h.fits, h.fits.not_gt] using appendPrepare_cases p s

/-- The flash write of an APPEND, reported `ok` (43_log.md R130). -/
theorem appendWrite_of_ok (h : flashResult s = .ok) :
    appendWrite (appendEntry p s) (appendWriting p s) = .ok (appendWritten p s) := by
  have h' : flashResult (appendWriting p s) = .ok := h
  simp only [appendWrite, memWrite, h']
  rfl

/-- The flash write of an APPEND, reported `fail` (43_log.md R134). -/
theorem appendWrite_of_fail (h : flashResult s = .fail) :
    appendWrite (appendEntry p s) (appendWriting p s) = .error (appendFailed p s) := by
  have h' : flashResult (appendWriting p s) = .fail := h
  simp only [appendWrite, memWrite, h']
  rfl

/-- The states of an APPEND that is reported `ok` (43_log.md R130, R136). -/
theorem appendStates_of_ok (h : AppendAccepts p s) (hr : flashResult s = .ok) :
    appendStates p s =
      [s, timerTaken (setFState .empty s), appendWriting p s, appendWritten p s, appendCommit (appendWritten p s),
        appendReturned p s] := by
  have hwrite := appendWrite_of_ok (p := p) hr
  rw [appendWriting] at hwrite
  simp only [appendStates, appendPrepare_of_accepts h, hwrite]
  rfl

/-- The states of an APPEND that is reported `fail` (43_log.md R134, R136). -/
theorem appendStates_of_fail (h : AppendAccepts p s) (hr : flashResult s = .fail) :
    appendStates p s = [s, timerTaken (setFState .empty s), appendWriting p s, appendFailed p s] := by
  have hwrite := appendWrite_of_fail (p := p) hr
  rw [appendWriting] at hwrite
  simp only [appendStates, appendPrepare_of_accepts h, hwrite]
  rfl

/-- APPEND run whole, reported `ok` (43_log.md R130). -/
theorem append_of_ok (h : AppendAccepts p s) (hr : flashResult s = .ok) : append p s = appendReturned p s := by
  rw [← appendStates_getLastD p s s, appendStates_of_ok h hr]
  rfl

/-- APPEND run whole, reported `fail` (43_log.md R134). -/
theorem append_of_fail (h : AppendAccepts p s) (hr : flashResult s = .fail) : append p s = appendFailed p s := by
  rw [← appendStates_getLastD p s s, appendStates_of_fail h hr]
  rfl

/-- APPEND returns OK, or leaves the cursor where it stood (43_log.md R131, R132, R134). -/
theorem append_cases (p : Params) (s : State) :
    (AppendAccepts p s ∧ flashResult s = .ok) ∨
      ((append p s).sys.rc ≠ 0#4 ∧ (append p s).log.cursor = s.log.cursor) := by
  by_cases hv : s.cod.fstate = .verified
  case neg =>
    rw [append_of_ne_verified hv]
    exact .inr ⟨show RetCode.errSeq.number ≠ 0#4 by decide, rfl⟩
  by_cases ha : s.log.cursor.toNat % entryBytes = 0
  case neg =>
    rw [append_of_misaligned hv ha]
    exact .inr ⟨show RetCode.errCursor.number ≠ 0#4 by decide, rfl⟩
  by_cases hf : s.log.cursor.toNat + entryBytes ≤ p.logCapacity.val
  case neg =>
    rw [append_of_full hv ha (Nat.lt_of_not_le hf)]
    exact .inr ⟨show RetCode.storageFull.number ≠ 0#4 by decide, rfl⟩
  cases hr : flashResult s with
  | ok => exact .inl ⟨⟨hv, ha, hf⟩, rfl⟩
  | fail =>
    rw [append_of_fail ⟨hv, ha, hf⟩ hr]
    exact .inr ⟨show RetCode.writeFail.number ≠ 0#4 by decide, rfl⟩

end

/-- At every moment of an APPEND the bytes outside its slot are as they were (43_log.md R134, R136). -/
theorem AppendLog.read_outside {p : Params} {s : State} {l : Log} (h : AppendLog p s l) {a : Nat}
    (ha : a < s.log.cursor.toNat ∨ s.log.cursor.toNat + entryBytes ≤ a) : l.flash.read a = s.log.flash.read a := by
  rw [← appendEntry_length p s] at ha
  cases h with
  | same => rfl
  | writing _ _ => rfl
  | failed _ _ => exact tearBytes_read_outside _ _ _ ha
  | written _ _ => exact Memory.read_writeBytes_outside _ _ ha
  | advanced _ _ => exact Memory.read_writeBytes_outside _ _ ha

/-- What APPEND run whole leaves of the log unit. -/
theorem append_log (p : Params) (s : State) : AppendLog p s (append p s).log :=
  (appendStates_effect p s _ (append_mem_appendStates p s)).log

/-- An entry written whole is read back from its slot (43_log.md R130). -/
theorem readBytes_written (p : Params) (s : State) :
    (s.log.flash.writeBytes s.log.cursor.toNat (appendEntry p s)).readBytes s.log.cursor.toNat entryBytes =
      some (appendEntry p s) := by
  have h := Memory.readBytes_writeBytes (appendEntry p s) s.log.cursor.toNat s.log.flash
  rwa [appendEntry_length] at h

/-- Settles O36: the three tests, in their order. -/
theorem appendRefusals : Obligations.AppendRefusals := by
  refine ⟨decode_encode .append rfl, fun s => ⟨fun hv => ?_, fun hv ha => ?_, fun hv ha hf => ?_⟩⟩
  · rw [exec_append, append_of_ne_verified hv]
    rfl
  · rw [exec_append, append_of_misaligned hv ha]
    rfl
  · rw [exec_append, append_of_full hv ha hf]
    rfl

/-- Settles O37: the two reports of the driver. -/
theorem appendWritesOneEntry : Obligations.AppendWritesOneEntry := by
  rintro s body E hv ha hf rfl rfl
  have haccepts : AppendAccepts Config.params s := ⟨hv, ha, hf⟩
  have houtside := fun a => (append_log Config.params s).read_outside (a := a)
  refine ⟨append Config.params s, exec_append s, ?_⟩
  cases hr : flashResult s with
  | ok =>
    rw [append_of_ok haccepts hr] at houtside ⊢
    exact ⟨rfl, rfl, rfl, rfl, rfl, rfl, rfl, houtside,
      fun _ => ⟨readBytes_written Config.params s, nextCursor_toNat s hf, rfl⟩, nofun⟩
  | fail =>
    rw [append_of_fail haccepts hr] at houtside ⊢
    exact ⟨rfl, rfl, rfl, rfl, rfl, rfl, rfl, houtside, nofun,
      fun _ => ⟨rfl, rfl, fun i hi => tearBytes_read_inside _ _ _ _ i (appendEntry_length Config.params s ▸ hi)⟩⟩

/-- Settles O59: the full region and the `ok` report, whatever the record. -/
theorem appendFillsTheRegionInEveryConfiguration : Obligations.AppendFillsTheRegionInEveryConfiguration := by
  refine fun p s hv ha => ⟨fun hfull => ?_, fun hf hr => ?_⟩
  · exact congrArg Host.Outcome.next (append_of_full hv ha hfull)
  · have hreturned := append_of_ok ⟨hv, ha, hf⟩ hr
    have houtside := fun a => (append_log p s).read_outside (a := a)
    rw [hreturned] at houtside
    exact ⟨_, congrArg Host.Outcome.next hreturned, rfl, nextCursor_toNat s hf,
      (if_pos hf).trans (readBytes_written p s), houtside, rfl, rfl, rfl, rfl⟩

/-! ## ERASE -/

/-- ERASE always gives a next state (43_log.md R139). -/
theorem exec_erase (s : State) : exec .erase s = .next (eraseLog Config.params s) := rfl

/-- ERASE, reported `ok`: every byte of the region is erased (43_log.md R139). -/
theorem eraseLog_of_ok {p : Params} {s : State} (h : flashResult s = .ok) :
    eraseLog p s =
      ret .ok 0#32 { resultTaken s with
        log := { cursor := 0#32, phase := .idle, flash := Memory.ofBytes 0 (erasedRegion p) } } := by
  have h' : flashResult (eraseRewind (eraseStart s)) = .ok := h
  simp only [eraseLog, eraseRegion, flashErase, h, h']
  rfl

/-- ERASE, reported `fail`: the region is torn, and the cursor rewound nevertheless (43_log.md R139, R140). -/
theorem eraseLog_of_fail {p : Params} {s : State} (h : flashResult s = .fail) :
    eraseLog p s =
      ret .eraseFail 0#32 (tearFlash 0 (erasedRegion p)
        { resultTaken s with log := { cursor := 0#32, phase := .idle, flash := s.log.flash } }) := by
  have h' : flashResult (eraseRewind (eraseStart s)) = .fail := h
  simp only [eraseLog, eraseRegion, flashErase, h, h']
  rfl

/-- Whatever the driver reports, the cursor is rewound (43_log.md R139). -/
theorem eraseLog_cursor (p : Params) (s : State) : (eraseLog p s).log.cursor = 0#32 := by
  cases hr : flashResult s with
  | ok =>
    rw [eraseLog_of_ok hr]
    rfl
  | fail =>
    rw [eraseLog_of_fail hr]
    rfl

/-- ERASE sees nothing of a state but its region and the draws (43_log.md R139). -/
theorem eraseLog_log_congr (p : Params) {x s : State} (hlog : x.log = s.log) (henv : x.env = s.env) :
    (eraseLog p x).log = (eraseLog p s).log := by
  have hresult : flashResult x = flashResult s := by rw [flashResult, henv, flashResult]
  cases hr : flashResult s with
  | ok =>
    rw [eraseLog_of_ok hr, eraseLog_of_ok (hresult.trans hr)]
    rfl
  | fail =>
    rw [eraseLog_of_fail hr, eraseLog_of_fail (hresult.trans hr)]
    simp only [ret_log, tearFlash, resultTaken, hlog, henv]

/-- Every byte of an erased region (20_memory.md R48). -/
theorem read_erased {p : Params} {a : Nat} (h : a < p.logCapacity.val) :
    (Memory.ofBytes 0 (erasedRegion p)).read a = some p.erasedByte := by
  have hread := Memory.read_ofBytes (erasedRegion p) 0 a
  rw [Nat.zero_add] at hread
  rw [hread, erasedRegion, List.getElem?_replicate_of_lt h]

/-- Each byte after an erase that failed or was cut off (20_memory.md R48). -/
theorem read_eraseTorn (p : Params) (m : Memory) (q : Draws TornByte) (a : Nat) :
    (tearBytes m 0 (erasedRegion p) q).1.read a = m.read a ∨
      (a < p.logCapacity.val ∧ ∃ b, (tearBytes m 0 (erasedRegion p) q).1.read a = some b) := by
  by_cases h : a < p.logCapacity.val
  · have hread := tearBytes_read_inside (erasedRegion p) 0 m q a (by simpa using h)
    rw [Nat.zero_add] at hread
    exact hread.imp id fun hb => ⟨h, hb⟩
  · exact .inl (tearBytes_read_outside _ _ _ (.inr (by simpa using h)))

/-- Settles O38: the two reports of the driver. -/
theorem eraseRewindsAndErases : Obligations.EraseRewindsAndErases := by
  refine ⟨decode_encode .erase rfl, fun s => ⟨eraseLog Config.params s, exec_erase s, ?_⟩⟩
  cases hr : flashResult s with
  | ok =>
    rw [eraseLog_of_ok hr]
    exact ⟨rfl, rfl, rfl, rfl, rfl, rfl, rfl, rfl, fun _ => ⟨rfl, fun a => read_erased⟩, nofun⟩
  | fail =>
    rw [eraseLog_of_fail hr]
    exact ⟨rfl, rfl, rfl, rfl, rfl, rfl, rfl, rfl, nofun, fun _ => ⟨rfl, read_eraseTorn Config.params _ _⟩⟩

/-! ## A reset inside a log command -/

section
variable {p : Params} {s : State} {l : Log}

/-- Outside every sub-step a reset keeps the cursor and the region (70_reset_and_hazards.md R195). -/
theorem resetMove_warm_of_idle (hl : s.log = l) (h : l.phase = .idle) :
    (resetMove p .warm s).log.cursor = l.cursor ∧ (resetMove p .warm s).log.flash = l.flash := by
  subst hl
  exact resetMove_warm_idle h

/-- In the flash write of an APPEND a reset keeps the cursor, and tears the slot (43_log.md R136). -/
theorem resetMove_warm_of_aWrite {e : List Byte} (hl : s.log = l) (h : l.phase = .aWrite e) :
    (resetMove p .warm s).log.cursor = l.cursor ∧
      (resetMove p .warm s).log.flash = (tearBytes l.flash l.cursor.toNat e s.env.torn).1 := by
  subst hl
  rw [(resetMove_warm p s).1]
  simp only [cutLog, h]
  exact ⟨rfl, rfl⟩

/-- In the cursor write of an APPEND a reset keeps the old cursor or the new one, and the region (43_log.md R136). -/
theorem resetMove_warm_of_aCommit (hl : s.log = l) (h : l.phase = .aCommit) :
    ((resetMove p .warm s).log.cursor = l.cursor ∨ (resetMove p .warm s).log.cursor = nextCursor s) ∧
      (resetMove p .warm s).log.flash = l.flash := by
  subst hl
  rw [(resetMove_warm p s).1]
  simp only [cutLog, h]
  exact cutCommit_retained (nextCursor s) s

/-- In the rewind of an ERASE a reset keeps the old cursor or 0, and the region (43_log.md R141). -/
theorem resetMove_warm_of_eCommit (hl : s.log = l) (h : l.phase = .eCommit) :
    ((resetMove p .warm s).log.cursor = l.cursor ∨ (resetMove p .warm s).log.cursor = 0#32) ∧
      (resetMove p .warm s).log.flash = l.flash := by
  subst hl
  rw [(resetMove_warm p s).1]
  simp only [cutLog, h]
  exact cutCommit_retained 0#32 s

/-- In the erase of an ERASE a reset keeps the cursor, and tears the region (43_log.md R141). -/
theorem resetMove_warm_of_eErase (hl : s.log = l) (h : l.phase = .eErase) :
    (resetMove p .warm s).log.cursor = l.cursor ∧
      (resetMove p .warm s).log.flash = (tearBytes l.flash 0 (erasedRegion p) s.env.torn).1 := by
  subst hl
  rw [(resetMove_warm p s).1]
  simp only [cutLog, h]
  exact ⟨rfl, rfl⟩

end

/-- A reset inside an APPEND begun between log commands leaves the bytes outside its slot as they were
(43_log.md R136). -/
theorem AppendLog.read_outside_resetMove_warm {p : Params} {s m : State} {l : Log} (h : AppendLog p s l)
    (hl : m.log = l) (hidle : s.log.phase = .idle) {a : Nat}
    (ha : a < s.log.cursor.toNat ∨ s.log.cursor.toNat + entryBytes ≤ a) :
    (resetMove p .warm m).log.flash.read a = s.log.flash.read a := by
  have hread := h.read_outside ha
  cases h with
  | same => rw [(resetMove_warm_of_idle hl hidle).2]
  | writing _ _ =>
    rw [← appendEntry_length p s] at ha
    rw [(resetMove_warm_of_aWrite hl rfl).2]
    exact tearBytes_read_outside _ _ _ ha
  | failed _ _ => rw [(resetMove_warm_of_idle hl rfl).2, hread]
  | written _ _ => rw [(resetMove_warm_of_aCommit hl rfl).2, hread]
  | advanced _ _ => rw [(resetMove_warm_of_idle hl rfl).2, hread]

/-- The states a command passes through, from the write of its word on (30_encoding.md R61). -/
theorem requestStates_of_decode_ok (p : Params) {w : Word} {i : Instr} (s : State) (h : decode w = .ok i) :
    requestStates p (.write 0x00#8 w) s = s :: commandStates p i (setCmd w s) := by
  have hcmd : regOfNumber 0x00#8 = some .cmd := rfl
  simp only [requestStates, hcmd, h]

/-- The log unit `n` sub-steps into an APPEND that passes its tests (43_log.md R130, R136). -/
theorem stateInside_append_log {p : Params} {w : Word} {s : State} (hw : decode w = .ok .append)
    (h : AppendAccepts p s) (n : Nat) :
    (n ≤ 2 → (stateInside p (.write 0x00#8 w) n s).log = s.log) ∧
      (n = 3 → (stateInside p (.write 0x00#8 w) n s).log = (appendWriting p s).log) ∧
      (flashResult s = .ok → n = 4 → (stateInside p (.write 0x00#8 w) n s).log = (appendWritten p s).log) ∧
      (flashResult s = .ok → 5 ≤ n → (stateInside p (.write 0x00#8 w) n s).log = (appendReturned p s).log) ∧
      (flashResult s = .fail → 4 ≤ n → (stateInside p (.write 0x00#8 w) n s).log = (appendFailed p s).log) := by
  have hstates := requestStates_of_decode_ok p s hw
  rw [commandStates] at hstates
  have haccepts : AppendAccepts p (setCmd w s) := ⟨h.verified, h.aligned, h.fits⟩
  cases hr : flashResult s with
  | ok =>
    rw [appendStates_of_ok haccepts hr] at hstates
    simp only [stateInside, leaveOutstanding_log, hstates]
    refine ⟨fun hn => ?_, ?_, fun _ => ?_, fun _ hn => ?_, nofun⟩
    · interval_cases n <;> rfl
    · rintro rfl
      rfl
    · rintro rfl
      rfl
    · obtain ⟨k, rfl⟩ := Nat.exists_eq_add_of_le' hn
      rcases k with _ | _ | k <;> rfl
  | fail =>
    rw [appendStates_of_fail haccepts hr] at hstates
    simp only [stateInside, leaveOutstanding_log, hstates]
    refine ⟨fun hn => ?_, ?_, nofun, nofun, fun _ hn => ?_⟩
    · interval_cases n <;> rfl
    · rintro rfl
      rfl
    · obtain ⟨k, rfl⟩ := Nat.exists_eq_add_of_le' hn
      rcases k with _ | k <;> rfl

/-- The entry an APPEND builds does not depend on the word in CMD. -/
theorem AppendLog.of_setCmd {p : Params} {w : Word} {s : State} {l : Log} (h : AppendLog p (setCmd w s) l) :
    AppendLog p s l := by
  cases h with
  | same => exact .same
  | writing verified fits => exact .writing verified fits
  | failed verified fits => exact .failed verified fits
  | written verified fits => exact .written verified fits
  | advanced verified fits => exact .advanced verified fits

/-- A transaction that issues no ERASE does to the log unit what an APPEND can do (43_log.md R138). -/
theorem RequestMoment.appendLog {p : Params} {r : Request} {s x : State} (h : RequestMoment p r s x)
    (hr : commandOf r ≠ some .erase) : AppendLog p s x.log := by
  cases h with
  | start => exact .same
  | stored w => exact .same
  | illegal w => exact .same
  | written hw => exact (writeReg_frame hw).1 ▸ .same
  | @command w i x hi hx =>
    by_cases ha : i = .append
    · subst ha
      exact (appendStates_effect p _ x hx).log.of_setCmd
    · rw [(commandStates_other ha (fun he => hr (he ▸ hi)) x hx).1]
      exact .same

/-- What stands inside such a transaction (43_log.md R136). -/
theorem stateInside_appendLog {p : Params} {r : Request} (hr : commandOf r ≠ some .erase) (n : Nat) (s : State) :
    AppendLog p s (stateInside p r n s).log := by
  obtain ⟨x, hin, hx⟩ := stateInside_moment p r n s
  rw [hin]
  exact hx.appendLog hr

/-- A transaction cut off by a reset: the reset finds the log unit that stands inside it (70_reset_and_hazards.md
R197). -/
theorem step_begun_reset {s : State} (r : Request) (n : Nat) (k : ResetKind) (rest : List Event)
    (h : s.port.status ≠ .outstanding) :
    ∃ m x, step (pending (.begun r n) (.reset k :: rest) s) = .next m ∧
      step m = .next (resetMove Config.params k x) ∧ m.log = x.log ∧
      x.log = (stateInside Config.params r n (pending (.reset k) rest s)).log ∧
      (resetMove Config.params k x).port = { inbox := rest, status := .quiet } :=
  ⟨_, _, step_begun r n (.reset k :: rest) h,
    step_reset (congrArg Port.inbox (stateInside_port Config.params r n (pending (.reset k) rest s))), rfl, rfl,
    resetMove_port _ _ _⟩

/-- Settles O40: the log unit at each sub-step, and what a reset does in the phase it finds. -/
theorem resetInsideAppend : Obligations.ResetInsideAppend := by
  intro s n rest hport hidle hv ha hf
  obtain ⟨m, x, hm, ht, hmx, hx, hquiet⟩ := step_begun_reset (.write 0x00#8 0x40000000#32) n .warm rest hport
  have hdecode : decode 0x40000000#32 = .ok .append := decode_encode .append rfl
  have haccepts : AppendAccepts Config.params (pending (.reset .warm) rest s) := ⟨hv, ha, hf⟩
  have hmoment := stateInside_appendLog (p := Config.params) (r := .write 0x00#8 0x40000000#32) (by decide) n
    (pending (.reset .warm) rest s)
  obtain ⟨hbefore, hwriting, hwritten, hreturned, hfailed⟩ :=
    stateInside_append_log hdecode haccepts n
  rw [← hx] at hbefore hwriting hwritten hreturned hfailed
  refine ⟨m, _, hm, ht, resetMove_volatile _ _ _, hquiet, fun a => hmoment.read_outside_resetMove_warm hx hidle, ?_⟩
  rw [hmx]
  refine ⟨fun hn => ?_, fun hn => ?_, fun hr hn => ?_, fun hr hn => ?_, fun hr hn => ?_⟩
  · have hphase := congrArg Log.phase (hbefore hn)
    obtain ⟨hcursor, hflash⟩ := resetMove_warm_of_idle (p := Config.params) (hbefore hn) hidle
    exact ⟨hphase.trans hidle, hcursor, hflash⟩
  · have hphase := congrArg Log.phase (hwriting hn)
    obtain ⟨hcursor, _⟩ := resetMove_warm_of_aWrite (p := Config.params) (hwriting hn) rfl
    exact ⟨hphase, hcursor⟩
  · have hphase := congrArg Log.phase (hwritten hr hn)
    obtain ⟨hcursor, hflash⟩ := resetMove_warm_of_aCommit (p := Config.params) (hwritten hr hn) rfl
    refine ⟨hphase, hcursor.imp id fun hnew => ?_, ?_⟩
    · rw [hnew, nextCursor, hwritten hr hn]
      exact nextCursor_toNat s hf
    · rw [hflash]
      exact readBytes_written Config.params s
  · have hphase := congrArg Log.phase (hreturned hr hn)
    obtain ⟨hcursor, hflash⟩ := resetMove_warm_of_idle (p := Config.params) (hreturned hr hn) rfl
    rw [hcursor, hflash]
    exact ⟨hphase, nextCursor_toNat s hf, readBytes_written Config.params s⟩
  · have hphase := congrArg Log.phase (hfailed hr hn)
    obtain ⟨hcursor, _⟩ := resetMove_warm_of_idle (p := Config.params) (hfailed hr hn) rfl
    exact ⟨hphase, hcursor⟩

/-- The log unit `n` sub-steps into an ERASE (43_log.md R139, R141). -/
theorem stateInside_erase_log {p : Params} {w : Word} (hw : decode w = .ok .erase) (n : Nat) (s : State) :
    (n < 2 → (stateInside p (.write 0x00#8 w) n s).log = s.log) ∧
      (n = 2 → (stateInside p (.write 0x00#8 w) n s).log = (eraseStart s).log) ∧
      (n = 3 → (stateInside p (.write 0x00#8 w) n s).log = (eraseRewind (eraseStart s)).log) ∧
      (4 ≤ n → (stateInside p (.write 0x00#8 w) n s).log = (eraseLog p s).log) := by
  have hstates := requestStates_of_decode_ok p s hw
  rw [commandStates, eraseStates] at hstates
  simp only [stateInside, leaveOutstanding_log, hstates]
  refine ⟨fun hn => ?_, ?_, ?_, fun hn => ?_⟩
  · interval_cases n <;> rfl
  · rintro rfl
    rfl
  · rintro rfl
    rfl
  · refine Eq.trans ?_ (eraseLog_log_congr p (setCmd_log w s) (setCmd_env w s))
    obtain ⟨k, rfl⟩ := Nat.exists_eq_add_of_le' hn
    rcases k with _ | _ | k <;> rfl

/-- Settles O41: the log unit at each sub-step, and what a reset does in the phase it finds. -/
theorem resetInsideErase : Obligations.ResetInsideErase := by
  intro s n rest hport hidle
  obtain ⟨m, x, hm, ht, hmx, hx, hquiet⟩ := step_begun_reset (.write 0x00#8 0x41000000#32) n .warm rest hport
  have hdecode : decode 0x41000000#32 = .ok .erase := decode_encode .erase rfl
  obtain ⟨hbefore, hrewinding, hrewound, hreturned⟩ :=
    stateInside_erase_log (p := Config.params) hdecode n (pending (.reset .warm) rest s)
  rw [eraseLog_log_congr Config.params (x := pending (.reset .warm) rest s) (s := s) rfl rfl] at hreturned
  rw [← hx] at hbefore hrewinding hrewound hreturned
  refine ⟨m, _, _, hm, ht, exec_erase s, resetMove_volatile _ _ _, hquiet, ?_⟩
  rw [hmx]
  refine ⟨fun hn => ?_, fun hn => ?_, fun hn => ?_, fun hn => ?_⟩
  · exact resetMove_warm_of_idle (hbefore hn) hidle
  · have hphase := congrArg Log.phase (hrewinding hn)
    obtain ⟨hcursor, hflash⟩ := resetMove_warm_of_eCommit (p := Config.params) (hrewinding hn) rfl
    exact ⟨hphase, hcursor, hflash⟩
  · have hphase := congrArg Log.phase (hrewound hn)
    obtain ⟨hcursor, hflash⟩ := resetMove_warm_of_eErase (p := Config.params) (hrewound hn) rfl
    rw [hcursor, hflash]
    exact ⟨hphase, rfl, read_eraseTorn Config.params _ _⟩
  · have hphase := congrArg Log.phase (hreturned hn)
    obtain ⟨hcursor, hflash⟩ := resetMove_warm_of_idle (p := Config.params) (hreturned hn) rfl
    exact ⟨hphase, hcursor.trans (eraseLog_cursor Config.params s), hflash⟩

/-! ## What the log holds -/

/-- A log whose cursor and bytes below it have not changed holds what it held (43_log.md R138). -/
theorem holdsEntries.keep {p : Params} {s t : State} {es : List (List Byte)} (h : holdsEntries p s es)
    (hcursor : t.log.cursor = s.log.cursor)
    (hbelow : ∀ a < s.log.cursor.toNat, t.log.flash.read a = s.log.flash.read a) : holdsEntries p t es := by
  obtain ⟨hlen, hentries⟩ := h
  refine ⟨hcursor ▸ hlen, fun i hi => ?_⟩
  have hbytes : t.log.flash.readBytes (entryBytes * i) entryBytes = s.log.flash.readBytes (entryBytes * i) entryBytes :=
    Memory.readBytes_congr _ fun j hj => hbelow _ (by simp only [entryBytes] at *; omega)
  rw [← hentries i hi, memRead, memRead, hbytes]

/-- What the log holds depends on the log unit alone. -/
theorem holdsEntries.of_log_eq {p : Params} {s t : State} {es : List (List Byte)} (h : holdsEntries p s es)
    (hlog : t.log = s.log) : holdsEntries p t es :=
  h.keep (by rw [hlog]) fun a _ => by rw [hlog]

/-- A log whose cursor has passed one more entry, the bytes below not changed, holds that entry besides
(43_log.md R138). -/
theorem holdsEntries.snoc {p : Params} {s t : State} {es : List (List Byte)} {e : List Byte} (h : holdsEntries p s es)
    (hcursor : t.log.cursor.toNat = s.log.cursor.toNat + entryBytes) (hfits : t.log.cursor.toNat ≤ p.logCapacity.val)
    (hbelow : ∀ a < s.log.cursor.toNat, t.log.flash.read a = s.log.flash.read a)
    (hnew : t.log.flash.readBytes s.log.cursor.toNat entryBytes = some e) : holdsEntries p t (es ++ [e]) := by
  have hlen := h.1
  have hold : holdsEntries p { t with log.cursor := s.log.cursor } es := h.keep rfl hbelow
  refine ⟨?_, fun i hi => ?_⟩
  · rw [hcursor, hlen, List.length_append, List.length_singleton, Nat.mul_succ]
  · rw [List.length_append, List.length_singleton] at hi
    rcases Nat.lt_succ_iff_lt_or_eq.1 hi with hlt | rfl
    · rw [List.getElem_append_left hlt]
      exact hold.2 i hlt
    · rw [List.getElem_concat_length rfl, ← hlen, ← hnew]
      exact if_pos (hcursor ▸ hfits)

/-- Where the log holds entries the cursor is aligned (10_state.md R39, I-CUR1). -/
theorem holdsEntries.aligned {p : Params} {s : State} {es : List (List Byte)} (h : holdsEntries p s es) :
    s.log.cursor.toNat % entryBytes = 0 := by
  rw [h.1]
  exact Nat.mul_mod_right _ _

/-- An APPEND that is reported `ok` adds the entry it built (43_log.md R130, R138). -/
theorem holdsEntries.append {p : Params} {s : State} {es : List (List Byte)} (h : holdsEntries p s es)
    (haccepts : AppendAccepts p s) (hr : flashResult s = .ok) :
    holdsEntries p (append p s) (es ++ [appendEntry p s]) := by
  have hbelow := fun a ha => (append_log p s).read_outside (a := a) (.inl ha)
  have hcursor := nextCursor_toNat s haccepts.fits
  rw [append_of_ok haccepts hr] at hbelow ⊢
  exact h.snoc hcursor (hcursor.trans_le haccepts.fits) hbelow (readBytes_written p s)

/-- Settles O45: what the log holds makes the cursor aligned, so that the tests pass. -/
theorem successfulAppendAddsItsEntry : Obligations.SuccessfulAppendAddsItsEntry := by
  intro s es h hv hf hr
  have haccepts : AppendAccepts Config.params s := ⟨hv, h.aligned, hf⟩
  refine ⟨_, exec_append s, ?_, h.append haccepts hr⟩
  rw [append_of_ok haccepts hr]
  rfl

/-! ## Events without ERASE and COLD reset -/

/-- What such an event does to the log unit: what a WARM reset does, or what an APPEND can do (43_log.md R138). -/
theorem takeEvent_log {p : Params} {e : Event} {s t : State} (hkeeps : keepsLog e = true)
    (h : takeEvent p (execIn p) e s = .next t) : t = resetMove p .warm s ∨ AppendLog p s t.log := by
  cases e with
  | reset k =>
    cases k with
    | warm =>
      cases h
      exact .inl rfl
    | cold contents => cases hkeeps
  | begun r n =>
    obtain ⟨_, rfl⟩ := takeEvent_begun_next h
    exact .inr (stateInside_appendLog (of_decide_eq_true hkeeps) n s)
  | request r =>
    obtain ⟨_, ht⟩ := takeEvent_request_next h
    obtain ⟨a, x, rfl, hx⟩ := transact_moment ht
    exact .inr (hx.appendLog (of_decide_eq_true hkeeps))

/-- A WARM reset leaves every byte below the cursor of a log in good order (43_log.md R137). -/
theorem LogOk.read_below_resetMove_warm {p : Params} {s : State} (h : LogOk p s.log) {a : Nat}
    (ha : a < s.log.cursor.toNat) : (resetMove p .warm s).log.flash.read a = s.log.flash.read a := by
  cases hph : s.log.phase with
  | idle => rw [(resetMove_warm_of_idle rfl hph).2]
  | aWrite e =>
    rw [(resetMove_warm_of_aWrite rfl hph).2]
    exact tearBytes_read_outside _ _ _ (.inl ha)
  | aCommit => rw [(resetMove_warm_of_aCommit rfl hph).2]
  | eCommit => rw [(resetMove_warm_of_eCommit rfl hph).2]
  | eErase =>
    rw [h.eErase hph] at ha
    exact absurd ha (Nat.not_lt_zero a)

/-- Such an event leaves every byte below the cursor (43_log.md R138). -/
theorem takeEvent_read_below {p : Params} {e : Event} {s t : State} (hlog : LogOk p s.log) (hkeeps : keepsLog e = true)
    (h : takeEvent p (execIn p) e s = .next t) : ∀ a < s.log.cursor.toNat, t.log.flash.read a = s.log.flash.read a := by
  intro a ha
  rcases takeEvent_log hkeeps h with rfl | happend
  · exact hlog.read_below_resetMove_warm ha
  · exact happend.read_outside (.inl ha)

/-- Such an event does not begin a rewind of the cursor (43_log.md R139). -/
theorem takeEvent_phase {p : Params} {e : Event} {s t : State} (hkeeps : keepsLog e = true)
    (h : takeEvent p (execIn p) e s = .next t) (hph : s.log.phase ≠ .eCommit) : t.log.phase ≠ .eCommit := by
  rcases takeEvent_log hkeeps h with rfl | happend
  · rw [resetMove_phase]
    nofun
  · generalize t.log = l at happend
    cases happend with
    | same => exact hph
    | writing _ _ => nofun
    | failed _ _ => nofun
    | written _ _ => nofun
    | advanced _ _ => nofun

/-- At every moment of a transaction the port stands as it did (20_memory.md R45). -/
theorem RequestMoment.port {p : Params} {r : Request} {s x : State} (h : RequestMoment p r s x) : x.port = s.port := by
  cases h with
  | start => rfl
  | stored w => rfl
  | illegal w => rfl
  | written hw => exact (writeReg_frame hw).2.1
  | command _ hx => exact (commandStates_port p _ _ x hx).trans (setCmd_port _ s)

/-- An event leaves the events still to come (00_scope.md R9). -/
theorem takeEvent_inbox {p : Params} {e : Event} {s t : State} (h : takeEvent p (execIn p) e s = .next t) :
    t.port.inbox = s.port.inbox := by
  cases e with
  | reset k =>
    cases h
    rw [resetMove_port]
  | begun r n =>
    obtain ⟨_, rfl⟩ := takeEvent_begun_next h
    rw [stateInside_port]
  | request r =>
    obtain ⟨_, ht⟩ := takeEvent_request_next h
    obtain ⟨a, x, rfl, hx⟩ := transact_moment ht
    rw [giveAnswer_port_inbox, hx.port]

/-- A step is the next event, or there is none and nothing changes (20_memory.md R55). -/
theorem step_next_cases {s t : State} (h : step s = .next t) :
    (s.port.inbox = [] ∧ t = s) ∨
      ∃ e rest, s.port.inbox = e :: rest ∧ t.port.inbox = rest ∧
        takeEvent Config.params (execIn Config.params) e { s with port.inbox := rest } = .next t := by
  rw [step_eq_stepIn] at h
  rcases stepWith_cases Config.params (execIn Config.params) s with ⟨hnil, hs⟩ | ⟨e, rest, hcons, hs⟩
  · cases hs.symm.trans h
    exact .inl ⟨hnil, rfl⟩
  · have ht := hs.symm.trans h
    exact .inr ⟨e, rest, hcons, takeEvent_inbox ht, ht⟩

/-! ## The log only grows -/

/-- One event without ERASE and COLD reset adds at most one entry, and a whole one (43_log.md R137, R138): CURSOR moves by
one entry or not at all, and in the state after it every slot below CURSOR holds an entry. -/
theorem takeEvent_grows {p : Params} {e : Event} {s t : State} {es : List (List Byte)} (hs : LogOk p s.log)
    (ht : LogOk p t.log) (hkeeps : keepsLog e = true) (hph : s.log.phase ≠ .eCommit)
    (h : takeEvent p (execIn p) e s = .next t) (hholds : holdsEntries p s es) :
    ∃ new : List (List Byte), new.length ≤ 1 ∧ (∀ e ∈ new, entryOk p e) ∧ holdsEntries p t (es ++ new) := by
  have hbelow := takeEvent_read_below hs hkeeps h
  rcases takeEvent_cursor hs hkeeps hph h with hcursor | hcursor
  · exact ⟨[], Nat.zero_le 1, nofun, (List.append_nil es).symm ▸ hholds.keep hcursor hbelow⟩
  · have hslot : slotOk p t.log.flash s.log.cursor.toNat := by
      rw [hholds.1]
      exact ht.entries es.length (by rw [hcursor, hholds.1, Nat.mul_succ])
    obtain ⟨e, hread, hentry⟩ := hslot
    exact ⟨[e], Nat.le_refl 1, by simpa using hentry, hholds.snoc hcursor ht.inside hbelow hread⟩

/-- A run over events without ERASE and COLD reset, from any state in which the cursor is not being rewound
(43_log.md R138). -/
theorem run_grows {n : Nat} {s t : State} {es : List (List Byte)} (hinv : Inv Config.params s)
    (hph : s.log.phase ≠ .eCommit) (hholds : holdsEntries Config.params s es)
    (hkeeps : ∀ e ∈ s.port.inbox, keepsLog e = true) (hrun : Host.Core.run Sys2Proof.core n s = .next t) :
    ∃ new : List (List Byte), new.length ≤ n ∧ (∀ e ∈ new, entryOk Config.params e) ∧
      holdsEntries Config.params t (es ++ new) := by
  induction n generalizing s es with
  | zero =>
    cases hrun
    exact ⟨[], Nat.le_refl 0, nofun, (List.append_nil es).symm ▸ hholds⟩
  | succ n ih =>
    obtain ⟨u, hstep, hrest⟩ := run_succ_next hrun
    have hu := stepKeepsCrashSafety s u hinv hstep
    rcases step_next_cases hstep with ⟨_, rfl⟩ | ⟨e, rest, hinbox, hinbox', htake⟩
    · obtain ⟨new, hlen, hok, hnew⟩ := ih hinv hph hholds hkeeps hrest
      exact ⟨new, Nat.le_succ_of_le hlen, hok, hnew⟩
    · rw [hinbox, List.forall_mem_cons] at hkeeps
      obtain ⟨hkeep, hkeeps⟩ := hkeeps
      obtain ⟨first, hlen, hok, hfirst⟩ :=
        takeEvent_grows (s := { s with port.inbox := rest }) hinv.log hu.log hkeep hph htake hholds
      obtain ⟨new, hlen', hok', hnew⟩ := ih hu (takeEvent_phase hkeep htake hph) hfirst (hinbox' ▸ hkeeps) hrest
      refine ⟨first ++ new, ?_, List.forall_mem_append.2 ⟨hok, hok'⟩, List.append_assoc es first new ▸ hnew⟩
      rw [List.length_append]
      omega

/-- Settles O44: on a free port no sub-step is in progress. -/
theorem logOnlyGrowsByWholeEntries : Obligations.LogOnlyGrowsByWholeEntries := by
  intro n s t es hinv hport hholds hkeeps hrun
  have hidle := hinv.phaseIdle hport
  exact run_grows hinv (by rw [hidle]; nofun) hholds hkeeps hrun

/-! ## The log holds what was appended -/

/-- A request issues a command exactly when it writes the command's word to CMD (30_encoding.md R61). -/
theorem exists_write_of_commandOf {r : Request} {i : Instr} (h : commandOf r = some i) :
    ∃ w, r = .write 0x00#8 w ∧ decode w = .ok i := by
  cases r with
  | read rn => cases h
  | write rn w =>
    simp only [commandOf] at h
    split at h
    · rename_i hrn
      split at h
      · rename_i j hd
        cases h
        exact ⟨w, congrArg (Request.write · w) hrn, hd⟩
      · cases h
    · cases h

/-- A request that issues a command runs it, and answers (30_encoding.md R61). -/
theorem transact_of_commandOf {p : Params} {r : Request} {i : Instr} {s t : State} (hi : commandOf r = some i)
    (h : transact p (execIn p) r s = .next t) :
    ∃ w x, execIn p i (setCmd w s) = .next x ∧ t.sys = x.sys ∧ t.log = x.log := by
  obtain ⟨w, rfl, hd⟩ := exists_write_of_commandOf hi
  have hrun : runCommand (execIn p) w s = .next t := h
  rw [runCommand_of_decode_ok s hd] at hrun
  cases hx : execIn p i (setCmd w s) <;> rw [hx] at hrun <;> cases hrun
  exact ⟨w, _, hx, rfl, rfl⟩

/-- A transaction that issues neither APPEND nor ERASE leaves the log unit alone (20_memory.md R53). -/
theorem RequestMoment.log_eq {p : Params} {r : Request} {s x : State} (h : RequestMoment p r s x)
    (happend : commandOf r ≠ some .append) (herase : commandOf r ≠ some .erase) : x.log = s.log := by
  cases h with
  | start => rfl
  | stored w => rfl
  | illegal w => rfl
  | written hw => exact (writeReg_frame hw).1
  | command hi hx =>
    exact (commandStates_other (fun h => happend (h ▸ hi)) (fun h => herase (h ▸ hi)) _ hx).1

theorem appendedAt_of_append {s t : State} {r : Request} {rest : List Event} (hinbox : s.port.inbox = .request r :: rest)
    (hr : commandOf r = some .append) (hrc : t.sys.rc = 0#4) : appendedAt s t = [appendEntry Config.params s] := by
  simp only [appendedAt, hinbox, hr, hrc, and_self, if_true]
  rfl

theorem appendedAt_of_refused {s t : State} {r : Request} {rest : List Event}
    (hinbox : s.port.inbox = .request r :: rest) (hrc : t.sys.rc ≠ 0#4) : appendedAt s t = [] := by
  simp only [appendedAt, hinbox, hrc, and_false, if_false]

theorem appendedAt_of_ne_append {s t : State} {r : Request} {rest : List Event}
    (hinbox : s.port.inbox = .request r :: rest) (hr : commandOf r ≠ some .append) : appendedAt s t = [] := by
  simp only [appendedAt, hinbox, hr, false_and, if_false]

theorem appendedAt_of_begun {s : State} {r : Request} {k : Nat} {rest : List Event}
    (hinbox : s.port.inbox = .begun r k :: rest) (t : State) : appendedAt s t = [] := by
  simp only [appendedAt, hinbox]

theorem appendedAt_of_reset {s : State} {k : ResetKind} {rest : List Event}
    (hinbox : s.port.inbox = .reset k :: rest) (t : State) : appendedAt s t = [] := by
  simp only [appendedAt, hinbox]

theorem appendedAt_of_nil {s : State} (hinbox : s.port.inbox = []) (t : State) : appendedAt s t = [] := by
  simp only [appendedAt, hinbox]

theorem appendedIn_succ_of_next {n : Nat} {s u : State} (h : step s = .next u) :
    appendedIn (n + 1) s = appendedAt s u ++ appendedIn n u := by
  simp only [appendedIn, h]

/-- An APPEND run whole adds its entry when it returns OK, and nothing otherwise (43_log.md R138). -/
theorem append_holds {p : Params} {s : State} {es : List (List Byte)} (h : holdsEntries p s es) :
    ((append p s).sys.rc = 0#4 ∧ holdsEntries p (append p s) (es ++ [appendEntry p s])) ∨
      ((append p s).sys.rc ≠ 0#4 ∧ holdsEntries p (append p s) es) := by
  rcases append_cases p s with ⟨haccepts, hr⟩ | ⟨hrc, hcursor⟩
  · exact .inl ⟨by rw [append_of_ok haccepts hr]; rfl, h.append haccepts hr⟩
  · exact .inr ⟨hrc, h.keep hcursor fun a ha => (append_log p s).read_outside (.inl ha)⟩

/-- The events of the law: no ERASE, no COLD reset, and no APPEND cut off (43_log.md R138). -/
def wholeAppends (e : Event) : Prop :=
  keepsLog e = true ∧ ∀ r k, e = .begun r k → commandOf r ≠ some .append

/-- One such event, from a log that no sub-step is in progress on, adds what `appendedAt` says (43_log.md R138). -/
theorem takeEvent_holds {e : Event} {rest : List Event} {s t : State} {es : List (List Byte)}
    (hinbox : s.port.inbox = e :: rest) (hwhole : wholeAppends e) (hidle : s.log.phase = .idle)
    (hholds : holdsEntries Config.params s es)
    (h : takeEvent Config.params (execIn Config.params) e { s with port.inbox := rest } = .next t) :
    holdsEntries Config.params t (es ++ appendedAt s t) ∧ t.log.phase = .idle := by
  obtain ⟨hkeeps, hbegun⟩ := hwhole
  cases e with
  | reset k =>
    rw [appendedAt_of_reset hinbox, List.append_nil]
    cases k with
    | warm =>
      cases h
      obtain ⟨hcursor, hflash⟩ :=
        resetMove_warm_idle (p := Config.params) (s := { s with port.inbox := rest }) hidle
      exact ⟨hholds.keep hcursor fun a _ => congrArg (Memory.read · a) hflash, resetMove_phase _ _ _⟩
    | cold contents => cases hkeeps
  | begun r n =>
    rw [appendedAt_of_begun hinbox, List.append_nil]
    obtain ⟨_, rfl⟩ := takeEvent_begun_next h
    have hlog := stateInside_log (hbegun r n rfl) (of_decide_eq_true hkeeps) Config.params n { s with port.inbox := rest }
    exact ⟨hholds.of_log_eq hlog, by rw [hlog]; exact hidle⟩
  | request r =>
    obtain ⟨_, ht⟩ := takeEvent_request_next h
    refine ⟨?_, transact_phase_idle ht hidle⟩
    by_cases hr : commandOf r = some .append
    · obtain ⟨w, x, hx, hsys, hlog⟩ := transact_of_commandOf hr ht
      cases hx
      have hstored : holdsEntries Config.params (setCmd w { s with port.inbox := rest }) es := hholds
      rcases append_holds hstored with ⟨hrc, hadded⟩ | ⟨hrc, hkept⟩ <;> rw [← hsys] at hrc
      · rw [appendedAt_of_append hinbox hr hrc]
        exact hadded.of_log_eq hlog
      · rw [appendedAt_of_refused hinbox hrc, List.append_nil]
        exact hkept.of_log_eq hlog
    · rw [appendedAt_of_ne_append hinbox hr, List.append_nil]
      obtain ⟨a, x, rfl, hx⟩ := transact_moment ht
      exact hholds.of_log_eq (hx.log_eq hr (of_decide_eq_true hkeeps))

/-- A run over such events (43_log.md R138). -/
theorem run_holds {n : Nat} {s t : State} {es : List (List Byte)} (hidle : s.log.phase = .idle)
    (hholds : holdsEntries Config.params s es) (hwhole : ∀ e ∈ s.port.inbox, wholeAppends e)
    (hrun : Host.Core.run Sys2Proof.core n s = .next t) : holdsEntries Config.params t (es ++ appendedIn n s) := by
  induction n generalizing s es with
  | zero =>
    cases hrun
    exact (List.append_nil es).symm ▸ hholds
  | succ n ih =>
    obtain ⟨u, hstep, hrest⟩ := run_succ_next hrun
    rw [appendedIn_succ_of_next hstep, ← List.append_assoc]
    rcases step_next_cases hstep with ⟨hnil, rfl⟩ | ⟨e, rest, hinbox, hinbox', htake⟩
    · rw [appendedAt_of_nil hnil, List.append_nil]
      exact ih hidle hholds hwhole hrest
    · rw [hinbox, List.forall_mem_cons] at hwhole
      obtain ⟨hfirst, hwhole⟩ := hwhole
      obtain ⟨hu, hidle'⟩ := takeEvent_holds hinbox hfirst hidle hholds htake
      exact ih hidle' hu (hinbox' ▸ hwhole) hrest

/-- No command but ERASE writes a byte of flash below the cursor (43_log.md R138). -/
theorem commandStates_read_below {p : Params} {i : Instr} {s : State} (hi : i ≠ .erase) : ∀ x ∈ commandStates p i s,
    ∀ a < s.log.cursor.toNat, x.log.flash.read a = s.log.flash.read a := by
  intro x hx a hlt
  by_cases ha : i = .append
  · subst ha
    exact (appendStates_effect p s x hx).log.read_outside (.inl hlt)
  · rw [(commandStates_other ha hi x hx).1]

/-- Settles O46: the runs, from a free port, and the moments of a single command. -/
theorem logHoldsWhatWasAppended : Obligations.LogHoldsWhatWasAppended := by
  constructor
  · intro n s t es hinv hport hholds hwhole hrun
    exact run_holds (hinv.phaseIdle hport) hholds hwhole hrun
  · intro i s t hi h
    rw [exec_eq_execIn] at h
    exact commandStates_read_below hi t (execIn_mem_commandStates h)

end Sys2Proof.Machine
end

section
/-! PROOF. Unit SYS and the identity (44_system.md): what NOP does (R150), what SETID does before and after an identity is set
(R151), and that an identity, once set, stands until a reset (R152). -/

namespace Sys2Proof.Machine

/-! ## NOP -/

/-- NOP is `return (OK, 0)` (44_system.md R150). -/
theorem exec_nop (s : State) : exec .nop s = .next (ret .ok 0#32 s) := rfl

/-- Settles O19: the word is the encoding of NOP, and `ret` writes RC and RES alone. -/
theorem nopReturnsOk : Obligations.NopReturnsOk :=
  ⟨decode_encode .nop rfl, exec_nop⟩

/-! ## SETID -/

/-- SETID always gives a next state (44_system.md R151). -/
theorem exec_setid (s : State) : exec .setid s = .next (deriveIdentity Config.params s) := rfl

/-- Once an identity is set SETID only returns (44_system.md R151). -/
theorem deriveIdentity_of_idValid {p : Params} {s : State} (h : s.cod.idValid = true) :
    deriveIdentity p s = ret .errIdset (s.cod.tagId.zeroExtend 32) s := by
  simpa [h] using deriveIdentity_cases p s

/-- With no identity set SETID derives one (44_system.md R151). -/
theorem deriveIdentity_of_not_idValid {p : Params} {s : State} (h : s.cod.idValid = false) :
    deriveIdentity p s =
      ret .ok ((p.crc16 (unpack s.cod.uid.toList)).zeroExtend 32)
        { s with cod.tagId := p.crc16 (unpack s.cod.uid.toList), cod.idValid := true } := by
  simpa [h] using deriveIdentity_cases p s

/-- Byte `n` of the unpacked words is byte `n % 4`, most significant first, of word `n / 4` (00_scope.md R6). -/
theorem unpack_eq_map_range (ws : List Word) :
    unpack ws =
      (List.range (4 * ws.length)).map fun n => (ws.getD (n / 4) 0#32).extractLsb' (24 - 8 * (n % 4)) 8 := by
  induction ws with
  | nil => rfl
  | cons w ws ih =>
    have hlength : 4 * (w :: ws).length = 4 + 4 * ws.length := by
      rw [List.length_cons]
      omega
    have hfirst : be32 w =
        (List.range 4).map fun n => ((w :: ws).getD (n / 4) 0#32).extractLsb' (24 - 8 * (n % 4)) 8 := rfl
    rw [unpack, ih, hlength, List.range_add, List.map_append, List.map_map, ← hfirst]
    refine congrArg (be32 w ++ ·) (List.map_congr_left fun n _ => ?_)
    rw [Function.comp_apply, Nat.add_div_left n (by decide), Nat.add_mod_left, List.getD_cons_succ]

/-- Settles O20: the word is the encoding of SETID, and the unpacked UID is its sixteen bytes in index order. -/
theorem setidDerivesIdentity : Obligations.SetidDerivesIdentity := by
  refine ⟨decode_encode .setid rfl, fun s => ⟨fun h => ?_, fun h => ?_⟩⟩
  · have hbytes := unpack_eq_map_range s.cod.uid.toList
    rw [Vector.length_toList] at hbytes
    refine ⟨_, rfl, ?_⟩
    rw [exec_setid, deriveIdentity_of_not_idValid h, hbytes]
    rfl
  · rw [exec_setid, deriveIdentity_of_idValid h]
    rfl

/-! ## The identity is fixed -/

/-- A SETID that returns OK found no identity and has set one (44_system.md R151). -/
theorem deriveIdentity_of_ok {p : Params} {s : State} (hok : (deriveIdentity p s).sys.rc = RetCode.ok.number) :
    s.cod.idValid = false ∧ (deriveIdentity p s).cod.idValid = true := by
  rcases deriveIdentity_cases p s with ⟨_, h⟩ | ⟨hunset, h⟩ <;> rw [h] at hok ⊢
  · rw [ret_sys_rc] at hok
    exact absurd hok (by decide)
  · exact ⟨hunset, rfl⟩

/-- IDVALID, TAGID and the UID registers are as they were (44_system.md R152). -/
structure IdentityKept (c d : Cod) : Prop where
  idValid : d.idValid = c.idValid
  tagId : d.tagId = c.tagId
  uid : d.uid = c.uid

theorem IdentityKept.of_eq {c d : Cod} (h : d = c) : IdentityKept c d := by
  subst h
  exact ⟨rfl, rfl, rfl⟩

/-- Once an identity is set no command changes it at any moment: SETID is refused, and no other command writes IDVALID, TAGID
or the UID registers in any state (44_system.md R152). -/
theorem commandStates_identityKept {p : Params} {i : Instr} {s : State} (hset : s.cod.idValid = true) :
    ∀ x ∈ commandStates p i s, IdentityKept s.cod x.cod := by
  cases i
  case append =>
    intro x hx
    rcases (appendStates_effect p s x hx).cod with e | e <;> rw [e]
    · exact .of_eq rfl
    · exact ⟨rfl, rfl, rfl⟩
  case erase => exact fun x hx => .of_eq (eraseStates_effect p s x hx).cod
  all_goals
    simp only [commandStates, List.forall_mem_cons]
    refine ⟨.of_eq rfl, ?_, by simp⟩
  case nop => exact .of_eq rfl
  case setid =>
    rw [deriveIdentity_of_idValid hset]
    exact .of_eq rfl
  case next => exact .of_eq (drawJitter_frame p s.jit.arg s).2.1
  case nexti imm => exact .of_eq (drawJitter_frame p imm s).2.1
  case observe => exact .of_eq rfl
  case encode => rcases encodeFrame_cases p s with ⟨_, e⟩ | ⟨_, e⟩ <;> rw [e] <;> exact ⟨rfl, rfl, rfl⟩
  case encrypt => rcases encryptFrame_cases p s with ⟨_, e⟩ | ⟨_, e⟩ <;> rw [e] <;> exact ⟨rfl, rfl, rfl⟩
  case verify =>
    rcases verifyFrame_cases p s with ⟨_, e⟩ | ⟨_, _, e⟩ | ⟨_, _, _, e⟩ | ⟨_, _, _, e⟩ <;> rw [e] <;>
      exact ⟨rfl, rfl, rfl⟩

/-- Once an identity is set a transaction keeps it at every moment: the UID registers are locked (10_state.md R20,
44_system.md R152). -/
theorem RequestMoment.identityKept {p : Params} {r : Request} {s x : State} (h : RequestMoment p r s x)
    (hset : s.cod.idValid = true) : IdentityKept s.cod x.cod := by
  cases h with
  | start => exact .of_eq rfl
  | stored w => exact .of_eq rfl
  | illegal w => exact .of_eq rfl
  | written hw =>
    obtain ⟨_, _, _, _, _, _, _, _, htag, hvalid, huid⟩ := writeReg_frame hw
    exact ⟨hvalid, htag, huid hset⟩
  | @command w _ _ _ hx => exact commandStates_identityKept (s := setCmd w s) hset x hx

/-- Once an identity is set only a reset changes it (44_system.md R152). -/
theorem takeEvent_identityKept {p : Params} {e : Event} {s t : State} (hset : s.cod.idValid = true)
    (hreset : ∀ k, e ≠ .reset k) (h : takeEvent p (execIn p) e s = .next t) : IdentityKept s.cod t.cod := by
  cases e with
  | reset k => exact absurd rfl (hreset k)
  | request r =>
    obtain ⟨_, ht⟩ := takeEvent_request_next h
    obtain ⟨a, x, rfl, hx⟩ := transact_moment ht
    exact hx.identityKept hset
  | begun r n =>
    obtain ⟨_, rfl⟩ := takeEvent_begun_next h
    obtain ⟨x, hin, hx⟩ := stateInside_moment p r n s
    rw [hin]
    exact hx.identityKept hset

/-- A reset of either kind clears the identity (10_state.md R39, 70_reset_and_hazards.md R195). -/
theorem resetMove_clears_identity (p : Params) (k : ResetKind) (s : State) :
    (resetMove p k s).cod.idValid = false ∧ (resetMove p k s).cod.tagId = 0#16 ∧
      ∀ i : Fin 4, (resetMove p k s).cod.uid[i] = 0#32 := by
  obtain ⟨_, _, _, _, _, _, _, _, _, huid, htag, hvalid, _⟩ := resetMove_volatile p k s
  exact ⟨hvalid, htag, huid⟩

/-- Settles O21: SETID by its cases, every other event at the moments of its transaction, and the resets by what they make of
the volatile domain. -/
theorem identityIsFixed : Obligations.IdentityIsFixed := by
  constructor
  · intro s t h hok
    cases (exec_setid s).symm.trans h
    exact deriveIdentity_of_ok hok
  · intro s t e rest h
    rw [step_pending, exec_eq_execIn] at h
    constructor
    · intro hset hreset
      obtain ⟨hvalid, htag, huid⟩ := takeEvent_identityKept (s := { s with port.inbox := rest }) hset hreset h
      exact ⟨hvalid.trans hset, htag, huid⟩
    · rintro k rfl
      cases h
      exact resetMove_clears_identity Config.params k _

end Sys2Proof.Machine
end

section
/-! PROOF. Return codes (60_exceptions.md): which codes each command returns (R167), that a refusal whose row lists no state
change leaves none (R171), and that nothing changes without an event (R187). -/

namespace Sys2Proof.Machine

/-! ## What a command returns -/

/-- A refusal that has made no state change: the four codes whose effect in the table of codes is RC and RES alone
(60_exceptions.md R166). -/
abbrev RetCode.withoutTrace (code : RetCode) : Prop :=
  code.number.toNat ∈ [5, 6, 7, 8]

/-- How a command begun in `s` ends when it returns one of `codes`: either in `s` itself but for RC and RES, or, with a code
that is no refusal without trace, in any state (60_exceptions.md R165, R171). -/
inductive ReturnsOneOf (codes : List RetCode) (s : State) : State → Prop
  /-- the command only returns -/
  | only {code : RetCode} (res : Word) (hrow : code ∈ codes) : ReturnsOneOf codes s (ret code res s)
  /-- the command has worked on the state before it returns -/
  | worked {code : RetCode} (res : Word) (u : State) (hrow : code ∈ codes) (heffect : ¬ code.withoutTrace) :
    ReturnsOneOf codes s (ret code res u)

/-- The codes each command can return, row by row (60_exceptions.md R167). -/
def returnCodes : Instr → List RetCode
  | .nop => [.ok]
  | .setid => [.ok, .errIdset]
  | .next => [.ok, .errRange]
  | .nexti _ => [.ok, .errRange]
  | .observe => [.ok]
  | .encode => [.ok, .errNoid]
  | .encrypt => [.ok, .errSeq]
  | .verify => [.ok, .errSeq, .rejected]
  | .append => [.ok, .errSeq, .errCursor, .storageFull, .writeFail]
  | .erase => [.ok, .eraseFail]

section
variable {codes : List RetCode} {s t : State}

/-- The code a command returns stands in RC (60_exceptions.md R165). -/
theorem ReturnsOneOf.rc_mem (h : ReturnsOneOf codes s t) :
    t.sys.rc.toNat ∈ codes.map fun code => code.number.toNat := by
  cases h with
  | only _ hrow => exact List.mem_map_of_mem hrow
  | worked _ _ hrow _ => exact List.mem_map_of_mem hrow

/-- A refusal without trace changes RC and RES and nothing else (60_exceptions.md R171). -/
theorem ReturnsOneOf.eq_of_withoutTrace (h : ReturnsOneOf codes s t) (hrc : t.sys.rc.toNat ∈ [5, 6, 7, 8]) :
    t = { s with sys := { s.sys with rc := t.sys.rc, res := t.sys.res } } := by
  cases h with
  | only _ _ => rfl
  | worked _ _ _ heffect => exact absurd hrc heffect

end

/-! ## Each command by its cases -/

theorem deriveIdentity_returns (p : Params) (s : State) :
    ReturnsOneOf (returnCodes .setid) s (deriveIdentity p s) := by
  rcases deriveIdentity_cases p s with ⟨_, h⟩ | ⟨_, h⟩ <;> rw [h]
  · exact .only _ (by decide)
  · exact .worked _ _ (by decide) (by decide)

/-- NEXT and NEXTI have the same row: both are one draw (40_jitter.md R82, R83). -/
theorem drawJitter_returns (p : Params) (range : Word) (s : State) :
    ReturnsOneOf [.ok, .errRange] s (drawJitter p range s) := by
  rcases drawJitter_cases p range s with ⟨_, h⟩ | ⟨_, h⟩ <;> rw [h]
  · exact .only _ (by decide)
  · exact .worked _ _ (by decide) (by decide)

theorem observe_returns (p : Params) (s : State) : ReturnsOneOf (returnCodes .observe) s (observe p s) :=
  .worked _ _ (by decide) (by decide)

theorem encodeFrame_returns (p : Params) (s : State) : ReturnsOneOf (returnCodes .encode) s (encodeFrame p s) := by
  rcases encodeFrame_cases p s with ⟨_, h⟩ | ⟨_, h⟩ <;> rw [h]
  · exact .only _ (by decide)
  · exact .worked _ _ (by decide) (by decide)

theorem encryptFrame_returns (p : Params) (s : State) :
    ReturnsOneOf (returnCodes .encrypt) s (encryptFrame p s) := by
  rcases encryptFrame_cases p s with ⟨_, h⟩ | ⟨_, h⟩ <;> rw [h]
  · exact .only _ (by decide)
  · exact .worked _ _ (by decide) (by decide)

/-- Both rejections of VERIFY have decrypted the frame in place (42_codec.md R111, R112). -/
theorem verifyFrame_returns (p : Params) (s : State) : ReturnsOneOf (returnCodes .verify) s (verifyFrame p s) := by
  rcases verifyFrame_cases p s with ⟨_, h⟩ | ⟨_, _, h⟩ | ⟨_, _, _, h⟩ | ⟨_, _, _, h⟩ <;> rw [h]
  · exact .only _ (by decide)
  all_goals exact .worked _ _ (by decide) (by decide)

/-- Past its first test APPEND has consumed the frame, whatever it returns (43_log.md R142). -/
theorem append_returns (p : Params) (s : State) : ReturnsOneOf (returnCodes .append) s (append p s) := by
  by_cases hv : s.cod.fstate = .verified
  case neg =>
    rw [append_of_ne_verified hv]
    exact .only _ (by decide)
  by_cases ha : s.log.cursor.toNat % entryBytes = 0
  case neg =>
    rw [append_of_misaligned hv ha]
    exact .worked _ _ (by decide) (by decide)
  by_cases hf : s.log.cursor.toNat + entryBytes ≤ p.logCapacity.val
  case neg =>
    rw [append_of_full hv ha (Nat.lt_of_not_le hf)]
    exact .worked _ _ (by decide) (by decide)
  cases hr : flashResult s with
  | ok =>
    rw [append_of_ok ⟨hv, ha, hf⟩ hr]
    exact .worked _ _ (by decide) (by decide)
  | fail =>
    rw [append_of_fail ⟨hv, ha, hf⟩ hr]
    exact .worked _ _ (by decide) (by decide)

/-- ERASE has rewound the cursor, whatever the driver reports (43_log.md R139, R140). -/
theorem eraseLog_returns (p : Params) (s : State) : ReturnsOneOf (returnCodes .erase) s (eraseLog p s) := by
  cases hr : flashResult s with
  | ok =>
    rw [eraseLog_of_ok hr]
    exact .worked _ _ (by decide) (by decide)
  | fail =>
    rw [eraseLog_of_fail hr]
    exact .worked _ _ (by decide) (by decide)

/-- Every command returns a code of its row, and with a refusal without trace it has only returned (60_exceptions.md R167,
R171). -/
theorem exec_returns {i : Instr} {s t : State} (h : exec i s = .next t) : ReturnsOneOf (returnCodes i) s t := by
  cases i <;> cases h
  case nop => exact .only _ (by decide)
  case setid => exact deriveIdentity_returns _ s
  case next => exact drawJitter_returns _ _ s
  case nexti imm => exact drawJitter_returns _ imm s
  case observe => exact observe_returns _ s
  case encode => exact encodeFrame_returns _ s
  case encrypt => exact encryptFrame_returns _ s
  case verify => exact verifyFrame_returns _ s
  case append => exact append_returns _ s
  case erase => exact eraseLog_returns _ s

/-- A word that is no command only returns ERR_ILLEGAL (30_encoding.md R66). -/
theorem executeWord_of_decode_error {run : Runner} {w : Word} {e : Illegal} (s : State) (h : decode w = .error e) :
    executeWord run w s = .next (illegalCommand s) := by
  simp only [executeWord, h]

/-! ## The statements -/

/-- Settles O47: an illegal word by what it returns, and each command by its row of `returnCodes`, whose numbers are those
of the statement. -/
theorem returnCodesOfEachCommand : Obligations.ReturnCodesOfEachCommand := by
  refine ⟨fun s w e hw => ⟨_, executeWord_of_decode_error s hw, rfl⟩, fun s t i h => ?_⟩
  have hrow := (exec_returns h).rc_mem
  cases i <;> exact hrow

/-- Settles O48: a command that returns such a code has only returned. -/
theorem refusalsAreWithoutTrace : Obligations.RefusalsAreWithoutTrace :=
  fun _ _ _ h hrc => (exec_returns h).eq_of_withoutTrace hrc

/-- Settles O10: a step is the next event, and there is none. -/
theorem nothingChangesWithoutEvents : Obligations.NothingChangesWithoutEvents := by
  intro s hnil
  rcases stepWith_cases Config.params exec s with ⟨_, h⟩ | ⟨e, rest, hcons, _⟩
  · exact h
  · cases hnil.symm.trans hcons

end Sys2Proof.Machine
end

section
/-! PROOF. Reset and hazards (70_reset_and_hazards.md): every command has a defined result (R217), what a WARM and a COLD reset
leave (R195, R196), and what the first reads after a reset answer (R199). -/

namespace Sys2Proof.Machine

/-! ## Every command completes -/

/-- Settles O8: a command answers the last of the states it passes through, and at each of them the port stands as it
did. -/
theorem everyCommandCompletes : Obligations.EveryCommandCompletes := by
  intro i s
  rw [exec_eq_execIn]
  have hnext := execIn_eq_last_commandStates Config.params i s s
  exact ⟨_, hnext, commandStates_port Config.params i s _ (execIn_mem_commandStates hnext)⟩

/-! ## What a reset leaves -/

/-- A reset that stands next is the reset of the state with only the events after it to come, whatever the port is doing
(70_reset_and_hazards.md R197). -/
theorem step_pending_reset (k : ResetKind) (rest : List Event) (s : State) :
    step (pending (.reset k) rest s) = .next (resetMove Config.params k { s with port.inbox := rest }) :=
  step_reset (s := pending (.reset k) rest s) rfl

/-- Settles O49: either reset clears the volatile domain and the port; between log commands a WARM one keeps the cursor and
the region. -/
theorem warmResetKeepsTheLog : Obligations.WarmResetKeepsTheLog :=
  fun s rest => ⟨_, step_pending_reset .warm rest s, resetMove_volatile _ _ _, resetMove_port _ _ _,
    resetMove_warm_idle (s := { s with port.inbox := rest })⟩

/-- The log unit after a COLD reset: rewound, over what the environment gives of the region
(70_reset_and_hazards.md R196). -/
theorem resetMove_cold_log (p : Params) (contents : List Byte) (s : State) :
    (resetMove p (.cold contents) s).log =
      { cursor := 0#32, phase := .idle, flash := Memory.ofBytes 0 (contents.take p.logCapacity.val) } :=
  rfl

/-- The contents a COLD reset finds, cut to the region, offset by offset (70_reset_and_hazards.md R196). -/
theorem read_ofBytes_take (contents : List Byte) (n a : Nat) :
    (Memory.ofBytes 0 (contents.take n)).read a = if a < n then contents[a]? else none := by
  have hread := Memory.read_ofBytes (contents.take n) 0 a
  rw [Nat.zero_add] at hread
  rw [hread, List.getElem?_take]

/-- A log whose cursor stands at 0 holds no entry, whatever the region holds (43_log.md R138). -/
theorem holdsEntries_nil {p : Params} {s : State} (h : s.log.cursor = 0#32) : holdsEntries p s [] :=
  ⟨by rw [h]; rfl, nofun⟩

/-- Settles O50: the log unit after a COLD reset is a rewound one over the given contents. -/
theorem coldResetClearsTheCursor : Obligations.ColdResetClearsTheCursor := by
  intro s contents rest
  refine ⟨_, step_pending_reset (.cold contents) rest s, resetMove_volatile _ _ _, resetMove_port _ _ _, ?_⟩
  have hlog := resetMove_cold_log Config.params contents { s with port.inbox := rest }
  rw [hlog]
  exact ⟨rfl, read_ofBytes_take contents _, logOk_ofBytes (List.length_take_le _ _),
    holdsEntries_nil (congrArg Log.cursor hlog)⟩

/-! ## The first reads -/

/-- After either reset STATUS tells whether the log has room for an entry (10_state.md R17, 70_reset_and_hazards.md
R199). -/
theorem statusWord_resetMove_of_room (p : Params) (k : ResetKind) (s : State) :
    statusWord p (resetMove p k s) =
      if (resetMove p k s).log.cursor.toNat + entryBytes ≤ p.logCapacity.val then 0x00000000#32 else 0x00000100#32 := by
  rw [statusWord_resetMove]
  by_cases hroom : (resetMove p k s).log.cursor.toNat + entryBytes ≤ p.logCapacity.val
  · rw [if_pos hroom, if_neg (by simpa [logFull] using hroom)]
  · rw [if_neg hroom, if_pos (by simpa [logFull] using hroom)]

/-- Settles O51: the volatile registers read their reset values, STATUS by the room for an entry, and CURSOR by the kind of
the reset. -/
theorem firstReadsAfterReset : Obligations.FirstReadsAfterReset := by
  intro s t k rest h
  cases (step_pending_reset k rest s).symm.trans h
  obtain ⟨hsys, hjit, _⟩ := resetMove_volatile Config.params k { s with port.inbox := rest }
  refine ⟨congrArg (fun u : Sys => u.rc.zeroExtend 32) hsys, congrArg Sys.res hsys, congrArg Sys.cmd hsys,
    congrArg Jit.v1 hjit, congrArg Jit.v2 hjit, congrArg Jit.seed hjit, statusWord_resetMove_of_room _ _ _, ?_, ?_⟩
  · rintro rfl hidle
    exact (resetMove_warm_idle (s := { s with port.inbox := rest }) hidle).1
  · rintro contents rfl
    exact congrArg Log.cursor (resetMove_cold_log Config.params contents { s with port.inbox := rest })

end Sys2Proof.Machine
end

section
/-! PROOF. When a step stops (20_memory.md R45, 60_exceptions.md R190), and the command word that `withFetchWord` places
(30_encoding.md R61). -/

namespace Sys2Proof.Machine

/-! ## When a step stops -/

/-- A write to CMD completes where the command it may issue does (30_encoding.md R61). -/
theorem runCommand_completes {run : Runner} (hrun : ∀ i s, ∃ t, run i s = .next t) (w : Word) (s : State) :
    ∃ t, runCommand run w s = .next t := by
  cases hw : decode w with
  | error e => exact ⟨_, runCommand_of_decode_error s hw⟩
  | ok i =>
    obtain ⟨t, ht⟩ := hrun i (setCmd w s)
    exact ⟨_, (runCommand_of_decode_ok s hw).trans (congrArg answerCommand ht)⟩

/-- A transaction that is taken is always answered (20_memory.md R41 to R45). -/
theorem transact_completes {run : Runner} (hrun : ∀ i s, ∃ t, run i s = .next t) (p : Params) (r : Request)
    (s : State) : ∃ t, transact p run r s = .next t := by
  cases r with
  | read rn => exact ⟨_, rfl⟩
  | write rn w =>
    simp only [transact]
    split
    · exact ⟨_, rfl⟩
    · exact runCommand_completes hrun w s
    · exact ⟨_, rfl⟩

/-- Every event but a reset is stopped while a transaction is in flight (20_memory.md R45). -/
theorem takeEvent_outstanding {e : Event} {s : State} (p : Params) (run : Runner) (hport : s.port.status = .outstanding)
    (hreset : ∀ k, e ≠ .reset k) : takeEvent p run e s = .fault .requestWhileOutstanding := by
  cases e with
  | reset k => exact absurd rfl (hreset k)
  | request r => exact if_pos hport
  | begun r n => exact if_pos hport

/-- An event on a free port, and a reset on any, happens (60_exceptions.md R190, 70_reset_and_hazards.md R197, R217). -/
theorem takeEvent_completes {run : Runner} (hrun : ∀ i s, ∃ t, run i s = .next t) {e : Event} {s : State} (p : Params)
    (h : ¬(s.port.status = .outstanding ∧ ∀ k, e ≠ .reset k)) : ∃ t, takeEvent p run e s = .next t := by
  cases e with
  | reset k => exact ⟨_, rfl⟩
  | request r =>
    have hfree : s.port.status ≠ .outstanding := fun hport => h ⟨hport, nofun⟩
    rw [takeEvent_request p run r s hfree]
    exact transact_completes hrun p r s
  | begun r n =>
    have hfree : s.port.status ≠ .outstanding := fun hport => h ⟨hport, nofun⟩
    exact ⟨_, takeEvent_begun p run r n s hfree⟩

/-- Settles O9: with a transaction in flight every event but a reset is stopped, and anything else happens, since every
command completes. -/
theorem stepStopsOnlyOnSecondRequest : Obligations.StepStopsOnlyOnSecondRequest := by
  intro s e rest
  by_cases hstop : s.port.status = .outstanding ∧ ∀ k, e ≠ .reset k
  · obtain ⟨hport, hreset⟩ := hstop
    have hfault : step (pending e rest s) = .fault .requestWhileOutstanding :=
      takeEvent_outstanding (s := { s with port.inbox := rest }) Config.params exec hport hreset
    rw [hfault]
    exact ⟨nofun, fun _ => ⟨hport, hreset⟩, fun _ => ⟨_, rfl⟩⟩
  · have hexec : ∀ i s, ∃ t, exec i s = .next t := fun i s => (everyCommandCompletes i s).imp fun _ => And.left
    obtain ⟨t, ht⟩ : ∃ t, step (pending e rest s) = .next t :=
      takeEvent_completes hexec (s := { s with port.inbox := rest }) Config.params hstop
    rw [ht]
    exact ⟨nofun, nofun, fun h => absurd h hstop⟩

/-! ## The word that is run next -/

/-- `withFetchWord` makes a write of the word to CMD the next event, on a quiet port (log entry 7). -/
theorem withFetchWord_toNat (s : State) (w : Word) :
    s.withFetchWord 32 w.toNat = pending (.request (.write 0x00#8 w)) s.port.inbox { s with port.status := .quiet } := by
  have hw : BitVec.ofNat 32 (w.toNat % 2 ^ 32) = w := by
    rw [Nat.mod_eq_of_lt w.isLt, BitVec.ofNat_toNat, BitVec.setWidth_eq]
  rw [State.withFetchWord, hw]
  rfl

/-- Settles O6: the placed word is a write to CMD on a free port, which the step runs. -/
theorem fetchWordIsRunNext : Obligations.FetchWordIsRunNext := by
  intro s w i t hw ht
  rw [withFetchWord_toNat]
  exact (stepRunsDecodedCommand { s with port.status := .quiet } s.port.inbox w nofun).1 i t hw ht

end Sys2Proof.Machine
end
